-- ==== Sys2Proof/Word.lean ====
section
/-! DEFINITION. The word types of the RustyChip CORE (spec 00_scope.md R12). Every value is unsigned. -/

namespace Sys2Proof

/-- A byte, 8 bits (R12). -/
abbrev Byte := BitVec 8

/-- A nibble, 4 bits (R12). -/
abbrev Nibble := BitVec 4

/-- An address: a 16-bit value that is always masked to 12 bits, so 12 bits are what it holds (R12, R61). -/
abbrev Addr := BitVec 12

/-- An opcode, the 16-bit instruction word (R12, R90). -/
abbrev Opcode := BitVec 16

/-- The index of a general register, 0 to 15 (R20); register 15 is the flag register VF (R23). -/
abbrev Reg := Fin 16

/-- The index of a logical key, 0 to 15 (R36). -/
abbrev Key := Fin 16

end Sys2Proof
end

