-- ==== Sys2Proof/Config.lean ====
section
/-! DEFINITION. The construction-time configuration (00_scope.md R10) and the free values. -/

namespace Sys2Proof

/-- SHIFT_SOURCE: whether a shift reads the second operand or the destination (R10, quirk (a)). -/
inductive ShiftSource where
  | vy
  | vx
deriving DecidableEq, Repr, Inhabited

/-- JUMP_OFFSET_REG: whether Bnnn adds V0 or the register its bits 11:8 name (R10, quirk (b)). -/
inductive JumpOffsetReg where
  | v0
  | vx
deriving DecidableEq, Repr, Inhabited

/-- LOGIC_VF: whether OR, AND and XOR leave VF or force it to 0 (R10, quirk (c)). -/
inductive LogicVF where
  | untouched
  | zero
deriving DecidableEq, Repr, Inhabited

/-- DRAW_EDGE: what DRW does past a screen edge (R10, R223, R224). -/
inductive DrawEdge where
  | wrap
  | clip
deriving DecidableEq, Repr, Inhabited

/-- VF_POLICY: whether naming register 15 as an indexed operand faults (R10, R22). -/
inductive VFPolicy where
  | fault
  | permit
deriving DecidableEq, Repr, Inhabited

/-- EXT_BEHAVIOUR: what executing an extended marker does (R10, R284). -/
inductive ExtBehaviour where
  | fault
  | noOp
deriving DecidableEq, Repr, Inhabited

/-- KEY_INDEX_POLICY: what SKP and SKNP do with a key index above 15 (R10, R260). -/
inductive KeyIndexPolicy where
  | fault
  | lowNibble
deriving DecidableEq, Repr, Inhabited

/-- FONT_DIGIT_POLICY: what LD F,Vx does with a digit above 15 (R10, R192). -/
inductive FontDigitPolicy where
  | fault
  | unmasked
  | lowNibble
deriving DecidableEq, Repr, Inhabited

/-- One pattern of EXTENDED_SET: it takes the opcodes `op` with `op &&& mask = value` (R95, R97). -/
structure Pattern where
  value : Opcode
  mask : Opcode
deriving DecidableEq, Repr, Inhabited

/-- The construction-time configuration of R10. No instruction reads it as data or writes it (R38). `drawEdge` is
`none` where the host has not chosen, for DRAW_EDGE has no default (R225): DESIGN CHOICE, log entry 2, safe. -/
structure Config where
  shiftSource : ShiftSource
  jumpOffsetReg : JumpOffsetReg
  logicVF : LogicVF
  drawEdge : Option DrawEdge
  vfPolicy : VFPolicy
  extBehaviour : ExtBehaviour
  extendedSet : List Pattern
  keyIndexPolicy : KeyIndexPolicy
  fontDigitPolicy : FontDigitPolicy
  font : Vector Byte 80
deriving DecidableEq, Repr, Inhabited

/-- FREE VALUE. The edge policy where the host has not chosen one (R225): nothing says which it is. DESIGN CHOICE, log
entry 2, safe. -/
opaque Config.openDrawEdge : DrawEdge

/-- FREE VALUE. The random oracles: the byte of the k-th draw from the oracle of a number, under no law (R11, R164). One
number stands for one sequence of draws, and nothing relates the sequences of two numbers. DESIGN CHOICE, log entry 13,
unsafe. -/
opaque Config.rnd (oracle k : Nat) : Byte

end Sys2Proof
end

