-- ==== Sys2Proof/Syntax.lean ====
section
/-! DEFINITION. The instructions, one constructor per row of spec/opcode_table.json, and the three results of
decoding (30_encoding.md R94, R95). -/

namespace Sys2Proof

/-- One constructor per row of the opcode table. The fields are those of R91: `x`, `y` register indexes, `kk` a byte,
`n` a nibble, `nnn` an address. The last eleven are the extended markers of R97, recognised and never executed as their
extended meaning (R284). -/
inductive Instr where
  /-- CLS, 00E0 (R221) -/
  | cls
  /-- RET, 00EE (R123) -/
  | ret
  /-- SYS addr, 0nnn (R120) -/
  | sys (nnn : Addr)
  /-- JP addr, 1nnn (R121) -/
  | jp (nnn : Addr)
  /-- CALL addr, 2nnn (R122) -/
  | call (nnn : Addr)
  /-- SE Vx,byte, 3xkk (R124) -/
  | seImm (x : Reg) (kk : Byte)
  /-- SNE Vx,byte, 4xkk (R125) -/
  | sneImm (x : Reg) (kk : Byte)
  /-- SE Vx,Vy, 5xy0 (R126) -/
  | seReg (x y : Reg)
  /-- LD Vx,byte, 6xkk (R151) -/
  | ldImm (x : Reg) (kk : Byte)
  /-- ADD Vx,byte, 7xkk (R152) -/
  | addImm (x : Reg) (kk : Byte)
  /-- LD Vx,Vy, 8xy0 (R153) -/
  | ldReg (x y : Reg)
  /-- OR Vx,Vy, 8xy1 (R154) -/
  | orReg (x y : Reg)
  /-- AND Vx,Vy, 8xy2 (R155) -/
  | andReg (x y : Reg)
  /-- XOR Vx,Vy, 8xy3 (R156) -/
  | xorReg (x y : Reg)
  /-- ADD Vx,Vy, 8xy4 (R157) -/
  | addReg (x y : Reg)
  /-- SUB Vx,Vy, 8xy5 (R158) -/
  | sub (x y : Reg)
  /-- SHR Vx,Vy, 8xy6 (R159) -/
  | shr (x y : Reg)
  /-- SUBN Vx,Vy, 8xy7 (R160) -/
  | subn (x y : Reg)
  /-- SHL Vx,Vy, 8xyE (R161) -/
  | shl (x y : Reg)
  /-- SNE Vx,Vy, 9xy0 (R127) -/
  | sneReg (x y : Reg)
  /-- LDI addr (LD I,addr), Annn (R190) -/
  | ldI (nnn : Addr)
  /-- JP V0,addr, Bnnn (R128); `x`, the top nibble of `nnn`, is used only under JUMP_OFFSET_REG = VX -/
  | jpV0 (nnn : Addr) (x : Reg)
  /-- RND Vx,byte, Cxkk (R164) -/
  | rnd (x : Reg) (kk : Byte)
  /-- DRW Vx,Vy,n, Dxyn (R222) -/
  | drw (x y : Reg) (n : Nibble)
  /-- SKP Vx, Ex9E (R255) -/
  | skp (x : Reg)
  /-- SKNP Vx, ExA1 (R256) -/
  | sknp (x : Reg)
  /-- LD Vx,DT, Fx07 (R252) -/
  | ldFromDT (x : Reg)
  /-- LD Vx,K, Fx0A (R257) -/
  | ldK (x : Reg)
  /-- LD DT,Vx, Fx15 (R253) -/
  | ldDT (x : Reg)
  /-- LD ST,Vx, Fx18 (R254) -/
  | ldST (x : Reg)
  /-- ADD I,Vx, Fx1E (R191) -/
  | addI (x : Reg)
  /-- LD F,Vx, Fx29 (R192) -/
  | ldF (x : Reg)
  /-- LD B,Vx, Fx33 (R193) -/
  | ldB (x : Reg)
  /-- LD [I],Vx, Fx55 (R194) -/
  | stRegs (x : Reg)
  /-- LD Vx,[I], Fx65 (R195) -/
  | ldRegs (x : Reg)
  /-- extended marker 00Cn (R97, R284) -/
  | ext00Cn (n : Nibble)
  /-- extended marker 00Dn (R97, R284) -/
  | ext00Dn (n : Nibble)
  /-- extended marker 00FB (R97, R284) -/
  | ext00FB
  /-- extended marker 00FC (R97, R284) -/
  | ext00FC
  /-- extended marker 00FD (R97, R284) -/
  | ext00FD
  /-- extended marker 00FE (R97, R284) -/
  | ext00FE
  /-- extended marker 00FF (R97, R284) -/
  | ext00FF
  /-- extended marker Dxy0 (R97, R284) -/
  | extDxy0 (x y : Reg)
  /-- extended marker Fx30 (R97, R284) -/
  | extFx30 (x : Reg)
  /-- extended marker Fx75 (R97, R284) -/
  | extFx75 (x : Reg)
  /-- extended marker Fx85 (R97, R284) -/
  | extFx85 (x : Reg)
deriving DecidableEq, Repr

/-- What the decoder answers (R94): `Base(instr)`, `Extended(op)` or `Invalid(op)`. An extended opcode that is a row of
the opcode table is answered as that row's instruction; `extended` is left for an opcode that only a host's own
EXTENDED_SET marks. -/
inductive Decoded where
  | instr (i : Instr)
  | extended (op : Opcode)
  | invalid (op : Opcode)
deriving DecidableEq, Repr

/-- The instruction a decoding names, where it names one. -/
def Decoded.instr? : Decoded → Option Instr
  | .instr i => some i
  | .extended _ => none
  | .invalid _ => none

end Sys2Proof
end

