-- ==== Sys2Proof/WellFormed.lean ====
section
/-! DEFINITION. Which instructions are ones the decoder can answer under the default EXTENDED_SET. -/

namespace Sys2Proof

/-- The addresses SYS cannot carry, because their words are CLS, RET or an extended marker of the default EXTENDED_SET
(R95, R97, R120). -/
def sysReserved (nnn : Addr) : Bool :=
  nnn == 0x0E0#12 || nnn == 0x0EE#12 || nnn &&& 0xFF0#12 == 0x0C0#12 || nnn &&& 0xFF0#12 == 0x0D0#12 ||
    nnn == 0x0FB#12 || nnn == 0x0FC#12 || nnn == 0x0FD#12 || nnn == 0x0FE#12 || nnn == 0x0FF#12

/-- Well-formed: SYS does not carry an address whose word means something else (R120); JP V0 carries the register its
address's top nibble names (R91, R128); DRW has a height of at least 1, since Dxy0 is an extended marker (R97, R222). -/
def Instr.wf : Instr → Bool
  | .sys nnn => !sysReserved nnn
  | .jpV0 nnn x => x.val == nnn.toNat / 256
  | .drw _ _ n => n != 0#4
  | .cls | .ret | .jp _ | .call _ | .seImm _ _ | .sneImm _ _ | .seReg _ _ | .ldImm _ _ | .addImm _ _ | .ldReg _ _
  | .orReg _ _ | .andReg _ _ | .xorReg _ _ | .addReg _ _ | .sub _ _ | .shr _ _ | .subn _ _ | .shl _ _ | .sneReg _ _
  | .ldI _ | .rnd _ _ | .skp _ | .sknp _ | .ldFromDT _ | .ldK _ | .ldDT _ | .ldST _ | .addI _ | .ldF _ | .ldB _
  | .stRegs _ | .ldRegs _ | .ext00Cn _ | .ext00Dn _ | .ext00FB | .ext00FC | .ext00FD | .ext00FE | .ext00FF
  | .extDxy0 _ _ | .extFx30 _ | .extFx75 _ | .extFx85 _ => true

end Sys2Proof
end

