-- ==== Sys2Proof/Decode.lean ====
section
/-! DEFINITION. Decoding, total over all opcodes (30_encoding.md R90 to R98), and the encoder beside it. The encodings are
the standard CHIP-8 ones the spec supplies and marks as from general knowledge: UNVERIFIED, log entry 12, unsafe. -/

namespace Sys2Proof

/-! ## Fields and byte order (R69, R91) -/

/-- Bits 15:12, the major opcode. -/
def opT (op : Opcode) : Nibble := op.extractLsb' 12 4

/-- Bits 11:8, the first register index. -/
def opX (op : Opcode) : Reg := (op.extractLsb' 8 4).toFin

/-- Bits 7:4, the second register index. -/
def opY (op : Opcode) : Reg := (op.extractLsb' 4 4).toFin

/-- Bits 3:0, a height or a sub-opcode. -/
def opN (op : Opcode) : Nibble := op.extractLsb' 0 4

/-- Bits 7:0, a byte immediate or a sub-opcode. -/
def opKK (op : Opcode) : Byte := op.extractLsb' 0 8

/-- Bits 11:0, an address immediate. -/
def opNNN (op : Opcode) : Addr := op.extractLsb' 0 12

/-- A register index as the four bits of its field. -/
def regBits (r : Reg) : Nibble := BitVec.ofFin r

/-- The byte at the lower address, bits 15:8 (R69). -/
def hiByte (op : Opcode) : Byte := op.extractLsb' 8 8

/-- The byte at the higher address, bits 7:0 (R69). -/
def loByte (op : Opcode) : Byte := op.extractLsb' 0 8

/-- The big-endian pair of two bytes (R63). -/
def wordOf (hi lo : Byte) : Opcode := hi ++ lo

/-! ## The extended markers (R97) -/

/-- The default EXTENDED_SET: the 11 patterns of R97, the spec's own choice (D4): UNVERIFIED, log entry 10, unsafe. -/
def defaultExtendedSet : List Pattern :=
  [⟨0x00C0#16, 0xFFF0#16⟩, ⟨0x00D0#16, 0xFFF0#16⟩, ⟨0x00FB#16, 0xFFFF#16⟩, ⟨0x00FC#16, 0xFFFF#16⟩,
   ⟨0x00FD#16, 0xFFFF#16⟩, ⟨0x00FE#16, 0xFFFF#16⟩, ⟨0x00FF#16, 0xFFFF#16⟩, ⟨0xD000#16, 0xF00F#16⟩,
   ⟨0xF030#16, 0xF0FF#16⟩, ⟨0xF075#16, 0xF0FF#16⟩, ⟨0xF085#16, 0xF0FF#16⟩]

/-- Whether some pattern of an EXTENDED_SET takes the opcode (R95). -/
def isExtended (ext : List Pattern) (op : Opcode) : Bool :=
  ext.any fun p => op &&& p.mask == p.value

/-- The row of the opcode table an extended opcode stands in, where it stands in one (R97). -/
def markerRow (op : Opcode) : Option Instr :=
  if op &&& 0xFFF0#16 = 0x00C0#16 then some (.ext00Cn (opN op))
  else if op &&& 0xFFF0#16 = 0x00D0#16 then some (.ext00Dn (opN op))
  else if op = 0x00FB#16 then some .ext00FB
  else if op = 0x00FC#16 then some .ext00FC
  else if op = 0x00FD#16 then some .ext00FD
  else if op = 0x00FE#16 then some .ext00FE
  else if op = 0x00FF#16 then some .ext00FF
  else if op &&& 0xF00F#16 = 0xD000#16 then some (.extDxy0 (opX op) (opY op))
  else if op &&& 0xF0FF#16 = 0xF030#16 then some (.extFx30 (opX op))
  else if op &&& 0xF0FF#16 = 0xF075#16 then some (.extFx75 (opX op))
  else if op &&& 0xF0FF#16 = 0xF085#16 then some (.extFx85 (opX op))
  else none

/-- The result for an opcode EXTENDED_SET takes (R94). -/
def decodeExtended (op : Opcode) : Decoded :=
  match markerRow op with
  | some i => .instr i
  | none => .extended op

/-! ## The base table (R93, R95), by top nibble -/

/-- Top nibble 0. -/
def decode0 (op : Opcode) : Decoded :=
  if op = 0x00E0#16 then .instr .cls
  else if op = 0x00EE#16 then .instr .ret
  else .instr (.sys (opNNN op))

/-- Top nibble 8, by the low nibble. -/
def decode8 (op : Opcode) : Decoded :=
  match (opN op).toNat with
  | 0x0 => .instr (.ldReg (opX op) (opY op))
  | 0x1 => .instr (.orReg (opX op) (opY op))
  | 0x2 => .instr (.andReg (opX op) (opY op))
  | 0x3 => .instr (.xorReg (opX op) (opY op))
  | 0x4 => .instr (.addReg (opX op) (opY op))
  | 0x5 => .instr (.sub (opX op) (opY op))
  | 0x6 => .instr (.shr (opX op) (opY op))
  | 0x7 => .instr (.subn (opX op) (opY op))
  | 0xE => .instr (.shl (opX op) (opY op))
  | _ => .invalid op

/-- Top nibble E, by the low byte. -/
def decodeE (op : Opcode) : Decoded :=
  if opKK op = 0x9E#8 then .instr (.skp (opX op))
  else if opKK op = 0xA1#8 then .instr (.sknp (opX op))
  else .invalid op

/-- Top nibble F, by the low byte. -/
def decodeF (op : Opcode) : Decoded :=
  if opKK op = 0x07#8 then .instr (.ldFromDT (opX op))
  else if opKK op = 0x0A#8 then .instr (.ldK (opX op))
  else if opKK op = 0x15#8 then .instr (.ldDT (opX op))
  else if opKK op = 0x18#8 then .instr (.ldST (opX op))
  else if opKK op = 0x1E#8 then .instr (.addI (opX op))
  else if opKK op = 0x29#8 then .instr (.ldF (opX op))
  else if opKK op = 0x33#8 then .instr (.ldB (opX op))
  else if opKK op = 0x55#8 then .instr (.stRegs (opX op))
  else if opKK op = 0x65#8 then .instr (.ldRegs (opX op))
  else .invalid op

/-- The base table of R95. In the 5 and 9 groups the low nibble must be 0 (R96). -/
def decodeBase (op : Opcode) : Decoded :=
  match (opT op).toNat with
  | 0x0 => decode0 op
  | 0x1 => .instr (.jp (opNNN op))
  | 0x2 => .instr (.call (opNNN op))
  | 0x3 => .instr (.seImm (opX op) (opKK op))
  | 0x4 => .instr (.sneImm (opX op) (opKK op))
  | 0x5 => if opN op = 0#4 then .instr (.seReg (opX op) (opY op)) else .invalid op
  | 0x6 => .instr (.ldImm (opX op) (opKK op))
  | 0x7 => .instr (.addImm (opX op) (opKK op))
  | 0x8 => decode8 op
  | 0x9 => if opN op = 0#4 then .instr (.sneReg (opX op) (opY op)) else .invalid op
  | 0xA => .instr (.ldI (opNNN op))
  | 0xB => .instr (.jpV0 (opNNN op) (opX op))
  | 0xC => .instr (.rnd (opX op) (opKK op))
  | 0xD => .instr (.drw (opX op) (opY op) (opN op))
  | 0xE => decodeE op
  | 0xF => decodeF op
  | _ => .invalid op

/-- The decoder (R94, R95): the extended patterns first, then the base table. -/
def decode (ext : List Pattern) (op : Opcode) : Decoded :=
  if isExtended ext op then decodeExtended op else decodeBase op

/-- The decoder on the two bytes of an instruction, the one at the lower address first (R90). -/
def decodeBytes (ext : List Pattern) (hi lo : Byte) : Decoded := decode ext (wordOf hi lo)

/-! ## The encoder (R91, R93, R97) -/

/-- A word of the form t x kk. -/
def encXKK (t : Nibble) (x : Reg) (kk : Byte) : Opcode := t ++ regBits x ++ kk

/-- A word of the form t x y n. -/
def encXYN (t : Nibble) (x y : Reg) (n : Nibble) : Opcode := t ++ regBits x ++ regBits y ++ n

/-- A word of the form t nnn. -/
def encNNN (t : Nibble) (nnn : Addr) : Opcode := t ++ nnn

/-- The opcode of an instruction, by its row of the opcode table. -/
def encode : Instr → Opcode
  | .cls => 0x00E0#16
  | .ret => 0x00EE#16
  | .sys nnn => encNNN 0x0#4 nnn
  | .jp nnn => encNNN 0x1#4 nnn
  | .call nnn => encNNN 0x2#4 nnn
  | .seImm x kk => encXKK 0x3#4 x kk
  | .sneImm x kk => encXKK 0x4#4 x kk
  | .seReg x y => encXYN 0x5#4 x y 0x0#4
  | .ldImm x kk => encXKK 0x6#4 x kk
  | .addImm x kk => encXKK 0x7#4 x kk
  | .ldReg x y => encXYN 0x8#4 x y 0x0#4
  | .orReg x y => encXYN 0x8#4 x y 0x1#4
  | .andReg x y => encXYN 0x8#4 x y 0x2#4
  | .xorReg x y => encXYN 0x8#4 x y 0x3#4
  | .addReg x y => encXYN 0x8#4 x y 0x4#4
  | .sub x y => encXYN 0x8#4 x y 0x5#4
  | .shr x y => encXYN 0x8#4 x y 0x6#4
  | .subn x y => encXYN 0x8#4 x y 0x7#4
  | .shl x y => encXYN 0x8#4 x y 0xE#4
  | .sneReg x y => encXYN 0x9#4 x y 0x0#4
  | .ldI nnn => encNNN 0xA#4 nnn
  | .jpV0 nnn _ => encNNN 0xB#4 nnn
  | .rnd x kk => encXKK 0xC#4 x kk
  | .drw x y n => encXYN 0xD#4 x y n
  | .skp x => encXKK 0xE#4 x 0x9E#8
  | .sknp x => encXKK 0xE#4 x 0xA1#8
  | .ldFromDT x => encXKK 0xF#4 x 0x07#8
  | .ldK x => encXKK 0xF#4 x 0x0A#8
  | .ldDT x => encXKK 0xF#4 x 0x15#8
  | .ldST x => encXKK 0xF#4 x 0x18#8
  | .addI x => encXKK 0xF#4 x 0x1E#8
  | .ldF x => encXKK 0xF#4 x 0x29#8
  | .ldB x => encXKK 0xF#4 x 0x33#8
  | .stRegs x => encXKK 0xF#4 x 0x55#8
  | .ldRegs x => encXKK 0xF#4 x 0x65#8
  | .ext00Cn n => encXYN 0x0#4 0 0xC n
  | .ext00Dn n => encXYN 0x0#4 0 0xD n
  | .ext00FB => 0x00FB#16
  | .ext00FC => 0x00FC#16
  | .ext00FD => 0x00FD#16
  | .ext00FE => 0x00FE#16
  | .ext00FF => 0x00FF#16
  | .extDxy0 x y => encXYN 0xD#4 x y 0x0#4
  | .extFx30 x => encXKK 0xF#4 x 0x30#8
  | .extFx75 x => encXKK 0xF#4 x 0x75#8
  | .extFx85 x => encXKK 0xF#4 x 0x85#8

/-! ## The decoder on the opcode table's words -/

/-- The 16-bit opcode of a table word of `nbits` bits, the bits above `nbits` being 0. -/
def tableOpcode (nbits w : Nat) : Opcode := BitVec.ofNat 16 (w % 2 ^ nbits)

/-- The instruction the decoder reads, under the default EXTENDED_SET, from a table word laid out as the hardware stores it. -/
def decodeTableWord (nbits w : Nat) : Option Instr :=
  (decodeBytes defaultExtendedSet (hiByte (tableOpcode nbits w)) (loByte (tableOpcode nbits w))).instr?

end Sys2Proof
end

