-- ==== Sys2Proof/Machine/Defaults.lean ====
section
/-! DEFINITION. The default configuration (00_scope.md R10) and the default font (20_memory.md R64). -/

namespace Sys2Proof.Machine

open Sys2Proof

/-- The default FONT, the standard CHIP-8 font in digit order (R64). UNVERIFIED: the spec marks it as from general knowledge (D14,
G2), log entry 11, unsafe. -/
def defaultFont : Vector Byte 80 :=
  #v[0xF0, 0x90, 0x90, 0x90, 0xF0,
     0x20, 0x60, 0x20, 0x20, 0x70,
     0xF0, 0x10, 0xF0, 0x80, 0xF0,
     0xF0, 0x10, 0xF0, 0x10, 0xF0,
     0x90, 0x90, 0xF0, 0x10, 0x10,
     0xF0, 0x80, 0xF0, 0x10, 0xF0,
     0xF0, 0x80, 0xF0, 0x90, 0xF0,
     0xF0, 0x10, 0x20, 0x40, 0x40,
     0xF0, 0x90, 0xF0, 0x90, 0xF0,
     0xF0, 0x90, 0xF0, 0x10, 0xF0,
     0xF0, 0x90, 0xF0, 0x90, 0x90,
     0xE0, 0x90, 0xE0, 0x90, 0xE0,
     0xF0, 0x80, 0x80, 0x80, 0xF0,
     0xE0, 0x90, 0x90, 0x90, 0xE0,
     0xF0, 0x80, 0xF0, 0x80, 0xF0,
     0xF0, 0x80, 0xF0, 0x80, 0x80]

/-- The defaults of R10, with DRAW_EDGE as the host chose it (`none`: not chosen, for it has no default, R225). -/
def defaultConfig (edge : Option DrawEdge) : Config where
  shiftSource := .vy
  jumpOffsetReg := .v0
  logicVF := .untouched
  drawEdge := edge
  vfPolicy := .fault
  extBehaviour := .fault
  extendedSet := defaultExtendedSet
  keyIndexPolicy := .fault
  fontDigitPolicy := .fault
  font := defaultFont

end Sys2Proof.Machine
end

