-- ==== Sys2Proof/Machine/State.lean ====
section
/-! DEFINITION. The state of the CORE (10_state.md R42), the reasons a step can stop, and the state after reset (R43). -/

namespace Sys2Proof.Machine

open Sys2Proof

/-- The execution state (R40). -/
inductive ExecState where
  | running
  /-- holds the register index of the LD Vx,K that waits -/
  | waitingForKey (x : Reg)
deriving DecidableEq, Repr, Inhabited

/-- How far the host has got in setting the machine up, so that loadProgram can be refused at any other time than the
spec's (R297, R325). The model's own field: DESIGN CHOICE, log entry 17, unsafe. -/
inductive Stage where
  | constructed
  | loaded
  | started
deriving DecidableEq, Repr, Inhabited

/-- Memory: (address, byte) pairs in one canonical form (Memory.wf, Machine/Ops.lean). -/
abbrev Memory := List Host.Cell

/-- The framebuffer, row by row; column 0, the leftmost pixel, is a row's most significant bit (R37; log entry 22, safe). -/
abbrev Framebuffer := Vector (BitVec 64) 32

/-- The fault classes of R280, each with its record of R282: the address and opcode of the faulting instruction and the
info of the table of R280. Every fault is terminal (R281). Each is safe: a stopped run proves nothing of what comes after. -/
inductive Fault where
  /-- code 1, raised by CALL at depth 16 (R31, R122); holds the return address that could not be pushed. Safe: the
  spec's own fault. -/
  | stackOverflow (addr : Addr) (opcode : Opcode) (ret : Addr)
  /-- code 2, raised by RET at depth 0 (R32, R123). Safe: the spec's own fault. -/
  | stackUnderflow (addr : Addr) (opcode : Opcode)
  /-- code 3, raised by the cycle on an opcode that decodes to Invalid (R98, R285). Safe: the spec's own fault. -/
  | decodeFailure (addr : Addr) (opcode : Opcode)
  /-- code 4, raised by an extended marker under EXT_BEHAVIOUR = Fault (R284). Safe: it stops where a CORE may go on. -/
  | unimplementedExtended (addr : Addr) (opcode : Opcode)
  /-- code 5, raised by an instruction that names register 15 by index under VF_POLICY = Fault (R22). Safe: it stops where
  a CORE may go on. -/
  | reservedRegister (addr : Addr) (opcode : Opcode) (index : Reg)
  /-- code 6, raised by SKP and SKNP on a value above 15 under KEY_INDEX_POLICY = Fault (R260). Safe: it stops where a
  CORE may go on. -/
  | keyIndexOutOfRange (addr : Addr) (opcode : Opcode) (value : Byte)
  /-- code 7, raised by LD F,Vx on a value above 15 under FONT_DIGIT_POLICY = Fault (R192). Safe: it stops where a CORE
  may go on. -/
  | fontDigitOutOfRange (addr : Addr) (opcode : Opcode) (value : Byte)
  /-- code 8, raised by loadProgram on more than 3584 bytes (R66); it has no address and no opcode (R282). Safe: the
  spec's own fault. -/
  | programTooLarge (length : Nat)
deriving DecidableEq, Repr

/-- The refusals. -/
inductive Refusal where
  /-- an instruction without a meaning, raised by exec's arm; no arm raises it. Safe. -/
  | notModelled (mnemonic : String)
  /-- raised by press and release on a key index above 15, which the spec says a model refuses (R299, D21). Unsafe for a
  host that sends it. -/
  | keyOutsideInterface (k : Nat)
  /-- raised by loadProgram at any time but once before the first cycle, which the spec says a model refuses (R297, D20).
  Unsafe for a host that reloads. -/
  | loadProgramOutOfTurn
deriving DecidableEq, Repr

/-- The whole state: the tuple of R42, the configuration of R10 (constant; log entry 1, safe), and the model's own
`oracle`, `draws` and `stage`. -/
structure State where
  /-- the general registers V0 to VF (R20); VF is `v[15]` (R23) -/
  v : Vector Byte 16
  /-- the index register I (R24) -/
  i : Addr
  /-- the program counter (R25) -/
  pc : Addr
  /-- the call stack, the last element being the top (R30) -/
  stack : List Addr
  /-- the delay timer DT (R34) -/
  dt : Byte
  /-- the sound timer ST (R34) -/
  st : Byte
  /-- the keypad flags (R36) -/
  key : Vector Bool 16
  /-- the framebuffer (R37) -/
  fb : Framebuffer
  /-- the memory (R60) -/
  mem : Memory
  /-- the execution state (R40) -/
  execState : ExecState
  /-- the fault slot (R41) -/
  fault : Option Fault
  /-- the configuration (R10) -/
  cfg : Config
  /-- which random oracle the machine draws from, constant: the model's own field (log entry 13, unsafe) -/
  oracle : Nat
  /-- the number of random draws so far: the model's own field (log entry 13, unsafe) -/
  draws : Nat
  /-- how far the host's set-up has got: the model's own field (log entry 17, unsafe) -/
  stage : Stage
deriving DecidableEq, Repr, Inhabited

/-- The state after reset: the values R43 gives, the default configuration of R10 with DRAW_EDGE not chosen, and zero for
each launch parameter. DESIGN CHOICE, log entries 3 to 8, unsafe: R321 says a claim holds for every launch value, and the
construction for every one of them is State.construct (Machine/HostPort.lean). -/
def State.reset : State where
  v := Vector.replicate 16 0
  i := 0x000#12
  pc := 0x200#12
  stack := []
  dt := 0
  st := 0
  key := Vector.replicate 16 false
  fb := Vector.replicate 32 0
  mem := []
  execState := .running
  fault := none
  cfg := defaultConfig none
  oracle := 0
  draws := 0
  stage := .constructed

end Sys2Proof.Machine
end

