-- ==== Sys2Proof/Machine/Ops.lean ====
section
/-! DEFINITION. The named operations over memory, registers, the call stack, the timers and the framebuffer, and raising a
fault, which is all this hardware has in place of taking an exception (60_exceptions.md R286). -/

namespace Sys2Proof.Machine

open Sys2Proof

/-- What a step or an instruction answers. -/
abbrev Result := Host.Outcome State Fault Refusal

/-! ## Addresses and memory (20_memory.md) -/

/-- `mask12(v) = v & 0xFFF` (R61). -/
def mask12 (v : Nat) : Addr := BitVec.ofNat 12 v

/-- `mask12(a + k)` (R61). -/
def addrPlus (a : Addr) (k : Nat) : Addr := mask12 (a.toNat + k)

/-- What an address nothing has written reads as: the default font in 0x050 to 0x09F (R64) and 0 elsewhere (R43 leaves it
open). DESIGN CHOICE, log entry 8, unsafe. -/
def unlistedByte (a : Nat) : Byte :=
  if h : 0x050 ≤ a ∧ a < 0x0A0 then defaultFont[a - 0x050] else 0

/-- The canonical form: addresses strictly rising and below 4096, no entry equal to what an unlisted address reads as. -/
abbrev Memory.wf (m : Memory) : Prop :=
  m.Pairwise (fun c d => c.1 < d.1) ∧ ∀ c ∈ m, c.1 < 4096 ∧ c.2 ≠ unlistedByte c.1

/-- `MemRead(a, 1)` (R62). -/
def memRead (m : Memory) (a : Addr) : Byte :=
  match m.find? (fun c => c.1 == a.toNat) with
  | some c => c.2
  | none => unlistedByte a.toNat

/-- Put a cell before the first one of a higher address. -/
def insertCell (c : Host.Cell) : Memory → Memory
  | [] => [c]
  | d :: m => if c.1 < d.1 then c :: d :: m else d :: insertCell c m

/-- `MemWrite(a, 1, b)` (R62), keeping the canonical form. -/
def memWrite (m : Memory) (a : Addr) (b : Byte) : Memory :=
  let rest := m.filter fun c => c.1 != a.toNat
  if b = unlistedByte a.toNat then rest else insertCell (a.toNat, b) rest

/-- The bytes at `a`, `a + 1`, …, wrapping (R61, R71). -/
def memReadBytes (m : Memory) (a : Addr) : Nat → List Byte
  | 0 => []
  | n + 1 => memRead m a :: memReadBytes m (addrPlus a 1) n

/-- Byte writes at `a`, `a + 1`, … in ascending order, wrapping (R61, R71, R73). -/
def memWriteBytes (m : Memory) (a : Addr) : List Byte → Memory
  | [] => m
  | b :: bs => memWriteBytes (memWrite m a b) (addrPlus a 1) bs

/-- `MemRead(a, 2)`: the big-endian pair at `a` and `mask12(a + 1)` (R63). -/
def memReadWord (m : Memory) (a : Addr) : Opcode := wordOf (memRead m a) (memRead m (addrPlus a 1))

/-! ## Registers (10_state.md) -/

/-- The flag register VF is register 15 (R23). -/
def flagReg : Reg := 15

/-- `V[r]` (R13). -/
def State.reg (s : State) (r : Reg) : Byte := s.v[r]

/-- `V[r] <- b` (R13). -/
def State.setReg (s : State) (r : Reg) (b : Byte) : State := { s with v := s.v.set r.val b }

/-- setFlag and clearFlag: 1 or 0 into register 15 (R23). -/
def State.setFlag (s : State) (f : Bool) : State := s.setReg flagReg (if f then 1 else 0)

/-- `I <- a`. -/
def State.setI (s : State) (a : Addr) : State := { s with i := a }

/-- `pc <- a`. -/
def State.setPc (s : State) (a : Addr) : State := { s with pc := a }

/-- `DT <- b` (R35). -/
def State.setDT (s : State) (b : Byte) : State := { s with dt := b }

/-- `ST <- b` (R35). -/
def State.setST (s : State) (b : Byte) : State := { s with st := b }

/-- The whole framebuffer. -/
def State.setFb (s : State) (fb : Framebuffer) : State := { s with fb := fb }

/-- The whole memory. -/
def State.setMem (s : State) (m : Memory) : State := { s with mem := m }

/-- The whole call stack. -/
def State.setStack (s : State) (l : List Addr) : State := { s with stack := l }

/-- The execution state. -/
def State.setExec (s : State) (e : ExecState) : State := { s with execState := e }

/-- One more random draw made (R164). -/
def State.countDraw (s : State) : State := { s with draws := s.draws + 1 }

/-- The fetch's advance: pc by 2, wrapped (R26, R28); the first one starts the machine (R297). -/
def State.advance (s : State) : State := { s with pc := addrPlus s.pc 2, stage := .started }

/-- The address of the instruction in execution, whose fetch has moved pc 2 past it (R26, R103): DEDUCED, log entry 16,
safe. -/
def State.instrAddr (s : State) : Addr := addrPlus s.pc 0xFFE

/-- `pc <- mask12(pc + 2)` when the condition holds (R27). -/
def State.skipIf (s : State) (c : Bool) : State := if c then s.setPc (addrPlus s.pc 2) else s

/-- LD Vx,[I]'s loop: V[k] from `mask12(I + k)` for k = 0 to x (R195). -/
def State.loadRegs (s : State) (x : Reg) : State :=
  { s with v := Vector.ofFn fun k : Fin 16 => if k ≤ x then memRead s.mem (addrPlus s.i k.val) else s.reg k }

/-! ## Faults (60_exceptions.md R280, R282) -/

/-- The cause code of a fault (R280). -/
def Fault.code : Fault → Nat
  | .stackOverflow .. => 1
  | .stackUnderflow .. => 2
  | .decodeFailure .. => 3
  | .unimplementedExtended .. => 4
  | .reservedRegister .. => 5
  | .keyIndexOutOfRange .. => 6
  | .fontDigitOutOfRange .. => 7
  | .programTooLarge .. => 8

/-- The address a fault record names (R282). -/
def Fault.addr : Fault → Option Addr
  | .stackOverflow a _ _ => some a
  | .stackUnderflow a _ => some a
  | .decodeFailure a _ => some a
  | .unimplementedExtended a _ => some a
  | .reservedRegister a _ _ => some a
  | .keyIndexOutOfRange a _ _ => some a
  | .fontDigitOutOfRange a _ _ => some a
  | .programTooLarge _ => none

/-- The opcode a fault record names (R282). -/
def Fault.opcode : Fault → Option Opcode
  | .stackOverflow _ op _ => some op
  | .stackUnderflow _ op => some op
  | .decodeFailure _ op => some op
  | .unimplementedExtended _ op => some op
  | .reservedRegister _ op _ => some op
  | .keyIndexOutOfRange _ op _ => some op
  | .fontDigitOutOfRange _ op _ => some op
  | .programTooLarge _ => none

/-- The info a fault record names, as a number (R280). -/
def Fault.info : Fault → Option Nat
  | .stackOverflow _ _ ret => some ret.toNat
  | .stackUnderflow _ _ => none
  | .decodeFailure _ op => some op.toNat
  | .unimplementedExtended _ op => some op.toNat
  | .reservedRegister _ _ r => some r.val
  | .keyIndexOutOfRange _ _ v => some v.toNat
  | .fontDigitOutOfRange _ _ v => some v.toNat
  | .programTooLarge n => some n

/-- `raise Fault(class, info)` in the execution of an instruction (R13, R281, R282): the machine stops with the record
that names the instruction's address and opcode. -/
def raise (i : Instr) (s : State) (mk : Addr → Opcode → Fault) : Result := .fault (mk s.instrAddr (encode i))

/-! ## The call stack (R30 to R33) -/

/-- The number of entries the call stack can hold (R30). -/
def stackDepth : Nat := 16

/-- `Push(a)` and go on (R31). -/
def push (i : Instr) (a : Addr) (s : State) (k : State → Result) : Result :=
  if s.stack.length < stackDepth then k (s.setStack (s.stack ++ [a]))
  else raise i s fun ad op => .stackOverflow ad op a

/-- `Pop()` and go on with the address popped (R32). -/
def pop (i : Instr) (s : State) (k : Addr → State → Result) : Result :=
  match s.stack.getLast? with
  | some a => k a (s.setStack s.stack.dropLast)
  | none => raise i s .stackUnderflow

/-! ## The timers (45_timers_keys.md R250) -/

/-- One tick of one timer: down by 1, floored at 0 (R34, R250). -/
def timerTick (b : Byte) : Byte := if b = 0 then 0 else b - 1

/-! ## The framebuffer (44_display.md) -/

/-- `FB[y][x]` (R37). -/
def pixel (fb : Framebuffer) (y : Fin 32) (x : Fin 64) : Bool := fb[y].getMsbD x.val

/-- `FB[y][x] <- FB[y][x] ^ 1` (R222). -/
def flipPixel (fb : Framebuffer) (y : Fin 32) (x : Fin 64) : Framebuffer :=
  fb.set y.val (fb[y] ^^^ BitVec.twoPow 64 (63 - x.val))

/-- `clear()`: every pixel 0 (R220, R221). -/
def clearedFb : Framebuffer := Vector.replicate 32 0

/-- `Target(cx, cy)` of R223 and R224. On the screen the two policies agree; off it Wrap reduces both coordinates and Clip
drops the pixel, and where the host chose neither a free value decides (R225). -/
def target (edge : Option DrawEdge) (cx cy : Nat) : Option (Fin 32 × Fin 64) :=
  if h : cx < 64 ∧ cy < 32 then some (⟨cy, h.2⟩, ⟨cx, h.1⟩)
  else
    match edge.getD Config.openDrawEdge with
    | .wrap => some (Fin.ofNat 32 cy, Fin.ofNat 64 cx)
    | .clip => none

/-- The visible pixels that the 1 bits of one sprite row meet, left to right; bit 7 is the leftmost column (R222). -/
def rowTargets (edge : Option DrawEdge) (px cy : Nat) (b : Byte) : List (Fin 32 × Fin 64) :=
  (List.range 8).filterMap fun col => if b.getMsbD col then target edge (px + col) cy else none

/-- The visible pixels that the 1 bits of a sprite meet, row by row from the top (R222). -/
def spriteTargets (edge : Option DrawEdge) (px : Nat) : Nat → List Byte → List (Fin 32 × Fin 64)
  | _, [] => []
  | py, b :: bs => rowTargets edge px py b ++ spriteTargets edge px (py + 1) bs

/-- Flip one pixel and remember whether it went from 1 to 0 (R222, R226). -/
def plot (acc : Framebuffer × Bool) (p : Fin 32 × Fin 64) : Framebuffer × Bool :=
  (flipPixel acc.1 p.1 p.2, acc.2 || pixel acc.1 p.1 p.2)

/-- `drawSprite(x, y, spriteBytes) -> collision` (R220, R222). -/
def drawSprite (edge : Option DrawEdge) (fb : Framebuffer) (px py : Nat) (bytes : List Byte) : Framebuffer × Bool :=
  (spriteTargets edge px py bytes).foldl plot (fb, false)

end Sys2Proof.Machine
end

