-- ==== Sys2Proof/Machine/Operands.lean ====
section
/-! DEFINITION. The operand forms: the register-15 check, the shift source, the jump offset register, the key index, the
font address, the pressed keys and the random byte. -/

namespace Sys2Proof.Machine

open Sys2Proof

/-- Whether VF_POLICY lets an instruction name register `r` by index (R22). -/
def State.allows (s : State) (r : Reg) : Bool := s.cfg.vfPolicy == .permit || r != flagReg

/-- `CheckReg(r)`, then go on (R13, R22). -/
def checkReg (i : Instr) (r : Reg) (s : State) (k : Result) : Result :=
  if s.allows r then k else raise i s fun a op => .reservedRegister a op r

/-- The register checks of a two-register instruction, x first, then y (R105). -/
def checkRegs (i : Instr) (x y : Reg) (s : State) (k : Result) : Result :=
  checkReg i x s (checkReg i y s k)

/-- The source of SHR and SHL, checked as SHIFT_SOURCE says: V[y], or V[x] with y not checked (R22, R159, R161). -/
def withShiftSource (i : Instr) (x y : Reg) (s : State) (k : Byte → Result) : Result :=
  match s.cfg.shiftSource with
  | .vy => checkReg i y s (k (s.reg y))
  | .vx => k (s.reg x)

/-- The offset of JP V0,addr, checked as JUMP_OFFSET_REG says: V0 with nothing checked, or V[x] (R128). -/
def withJumpOffset (i : Instr) (x : Reg) (s : State) (k : Byte → Result) : Result :=
  match s.cfg.jumpOffsetReg with
  | .v0 => k (s.reg 0)
  | .vx => checkReg i x s (k (s.reg x))

/-- `v & 0xF` as an index. -/
def lowNibble (v : Byte) : Fin 16 := Fin.ofNat 16 v.toNat

/-- Whether SKP and SKNP take the value as a key index: it is one, or KEY_INDEX_POLICY takes its low nibble (R260). -/
def State.takesKey (s : State) (v : Byte) : Bool := decide (v.toNat ≤ 15) || s.cfg.keyIndexPolicy == .lowNibble

/-- `KeyIndex(v)`, then go on with the index (R260). -/
def withKeyIndex (i : Instr) (v : Byte) (s : State) (k : Key → Result) : Result :=
  if s.takesKey v then k (lowNibble v) else raise i s fun a op => .keyIndexOutOfRange a op v

/-- The first address of the font (R64). -/
def fontBase : Nat := 0x050

/-- `0x050 + 5*d`, masked (R65, R192). -/
def fontAddr (d : Nat) : Addr := mask12 (fontBase + 5 * d)

/-- The address LD F,Vx gives a digit, then go on with it (R192). -/
def withFontAddr (i : Instr) (d : Byte) (s : State) (k : Addr → Result) : Result :=
  if d.toNat ≤ 15 then k (fontAddr d.toNat)
  else
    match s.cfg.fontDigitPolicy with
    | .fault => raise i s fun a op => .fontDigitOutOfRange a op d
    | .unmasked => k (fontAddr d.toNat)
    | .lowNibble => k (fontAddr (lowNibble d).val)

/-- `key[k]` (R36). -/
def State.keyDown (s : State) (k : Key) : Bool := s.key[k]

/-- `LowestPressed()`, or `none` where no key is pressed (R257, R259). -/
def State.lowestPressed (s : State) : Option Byte := (s.key.toList.findIdx? id).map (BitVec.ofNat 8)

/-- `rnd()`: the byte of the next draw from the machine's oracle, a free value (R164; log entry 13, unsafe). -/
def State.rndByte (s : State) : Byte := Config.rnd s.oracle s.draws

/-- The decimal digits of a byte: hundreds, tens, units (R193). -/
def bcdDigits (d : Byte) : List Byte :=
  [BitVec.ofNat 8 (d.toNat / 100), BitVec.ofNat 8 (d.toNat / 10 % 10), BitVec.ofNat 8 (d.toNat % 10)]

/-- The bytes LD [I],Vx stores: V0 to V[x] (R194). -/
def State.regsUpTo (s : State) (x : Reg) : List Byte := s.v.toList.take (x.val + 1)

/-- The bytes of a sprite of height `n`, from I on (R222). -/
def State.spriteBytes (s : State) (n : Nibble) : List Byte := memReadBytes s.mem s.i n.toNat

/-- What DRW Vx,Vy,n gives: the framebuffer after it and the collision (R222). -/
def State.drawn (s : State) (x y : Reg) (n : Nibble) : Framebuffer × Bool :=
  drawSprite s.cfg.drawEdge s.fb (s.reg x).toNat (s.reg y).toNat (s.spriteBytes n)

end Sys2Proof.Machine
end

