-- ==== Sys2Proof/Machine/Flags.lean ====
section
/-! DEFINITION. The flag computations (42_alu.md R150, R154 to R162): each gives a result with the flag that goes with it. -/

namespace Sys2Proof.Machine

open Sys2Proof

/-- `checked_add`: the wrapped sum and whether it overflowed (R150). -/
def checkedAdd (a b : Byte) : Byte × Bool :=
  (BitVec.ofNat 8 (a.toNat + b.toNat), decide (a.toNat + b.toNat > 255))

/-- `checked_sub`: the wrapped difference and whether it underflowed (R150). -/
def checkedSub (a b : Byte) : Byte × Bool :=
  (BitVec.ofInt 8 ((a.toNat : Int) - (b.toNat : Int)), decide (a.toNat < b.toNat))

/-- Subtract with the not-borrow flag of SUB and SUBN (R158, R160). -/
def subNotBorrow (a b : Byte) : Byte × Bool := ((checkedSub a b).1, !(checkedSub a b).2)

/-- Shift right by one, with the bit shifted out (R159). -/
def shiftRightOne (b : Byte) : Byte × Bool := (b >>> 1, b.getLsbD 0)

/-- Shift left by one, with the bit shifted out (R161). -/
def shiftLeftOne (b : Byte) : Byte × Bool := (b <<< 1, b.getLsbD 7)

/-- The result into V[x] first, then the flag into VF (R162). -/
def State.writeFlagged (s : State) (x : Reg) (r : Byte × Bool) : State := (s.setReg x r.1).setFlag r.2

/-- The result of OR, AND or XOR into V[x], then VF as LOGIC_VF says (R154 to R156). -/
def State.writeLogic (s : State) (x : Reg) (r : Byte) : State :=
  match s.cfg.logicVF with
  | .untouched => s.setReg x r
  | .zero => (s.setReg x r).setFlag false

end Sys2Proof.Machine
end

