-- ==== Sys2Proof/Machine/Alu.lean ====
section
/-! DEFINITION. Register loads, arithmetic and random (42_alu.md). -/

namespace Sys2Proof.Machine

open Sys2Proof

/-- LD Vx,byte (R151). -/
def execLdImm (x : Reg) (kk : Byte) (s : State) : Result :=
  checkReg (.ldImm x kk) x s (.next (s.setReg x kk))

/-- ADD Vx,byte: no flag (R152). -/
def execAddImm (x : Reg) (kk : Byte) (s : State) : Result :=
  checkReg (.addImm x kk) x s (.next (s.setReg x (checkedAdd (s.reg x) kk).1))

/-- LD Vx,Vy (R153). -/
def execLdReg (x y : Reg) (s : State) : Result :=
  checkRegs (.ldReg x y) x y s (.next (s.setReg x (s.reg y)))

/-- OR Vx,Vy (R154). -/
def execOrReg (x y : Reg) (s : State) : Result :=
  checkRegs (.orReg x y) x y s (.next (s.writeLogic x (s.reg x ||| s.reg y)))

/-- AND Vx,Vy (R155). -/
def execAndReg (x y : Reg) (s : State) : Result :=
  checkRegs (.andReg x y) x y s (.next (s.writeLogic x (s.reg x &&& s.reg y)))

/-- XOR Vx,Vy (R156). -/
def execXorReg (x y : Reg) (s : State) : Result :=
  checkRegs (.xorReg x y) x y s (.next (s.writeLogic x (s.reg x ^^^ s.reg y)))

/-- ADD Vx,Vy: VF the carry (R157). -/
def execAddReg (x y : Reg) (s : State) : Result :=
  checkRegs (.addReg x y) x y s (.next (s.writeFlagged x (checkedAdd (s.reg x) (s.reg y))))

/-- SUB Vx,Vy: VF the not-borrow of Vx - Vy (R158). -/
def execSub (x y : Reg) (s : State) : Result :=
  checkRegs (.sub x y) x y s (.next (s.writeFlagged x (subNotBorrow (s.reg x) (s.reg y))))

/-- SHR Vx,Vy: VF the bit shifted out (R159). -/
def execShr (x y : Reg) (s : State) : Result :=
  checkReg (.shr x y) x s (withShiftSource (.shr x y) x y s fun b => .next (s.writeFlagged x (shiftRightOne b)))

/-- SUBN Vx,Vy: VF the not-borrow of Vy - Vx (R160). -/
def execSubn (x y : Reg) (s : State) : Result :=
  checkRegs (.subn x y) x y s (.next (s.writeFlagged x (subNotBorrow (s.reg y) (s.reg x))))

/-- SHL Vx,Vy: VF the bit shifted out (R161). -/
def execShl (x y : Reg) (s : State) : Result :=
  checkReg (.shl x y) x s (withShiftSource (.shl x y) x y s fun b => .next (s.writeFlagged x (shiftLeftOne b)))

/-- RND Vx,byte: a drawn byte under a mask (R164). -/
def execRnd (x : Reg) (kk : Byte) (s : State) : Result :=
  checkReg (.rnd x kk) x s (.next ((s.setReg x (s.rndByte &&& kk)).countDraw))

end Sys2Proof.Machine
end

