-- ==== Sys2Proof/Machine/Control.lean ====
section
/-! DEFINITION. Control transfer and skips (41_control_flow.md). In every meaning the fetch has already advanced pc (R103). -/

namespace Sys2Proof.Machine

open Sys2Proof

/-- SYS addr: a plain jump (R120; 90_conflicts.md C4). -/
def execSys (nnn : Addr) (s : State) : Result := .next (s.setPc nnn)

/-- JP addr (R121). -/
def execJp (nnn : Addr) (s : State) : Result := .next (s.setPc nnn)

/-- CALL addr: push the return address, then jump (R122). -/
def execCall (nnn : Addr) (s : State) : Result := push (.call nnn) s.pc s fun t => .next (t.setPc nnn)

/-- RET: jump to the popped address (R123). -/
def execRet (s : State) : Result := pop .ret s fun a t => .next (t.setPc a)

/-- SE Vx,byte (R124). -/
def execSeImm (x : Reg) (kk : Byte) (s : State) : Result :=
  checkReg (.seImm x kk) x s (.next (s.skipIf (s.reg x == kk)))

/-- SNE Vx,byte (R125). -/
def execSneImm (x : Reg) (kk : Byte) (s : State) : Result :=
  checkReg (.sneImm x kk) x s (.next (s.skipIf (s.reg x != kk)))

/-- SE Vx,Vy (R126). -/
def execSeReg (x y : Reg) (s : State) : Result :=
  checkRegs (.seReg x y) x y s (.next (s.skipIf (s.reg x == s.reg y)))

/-- SNE Vx,Vy (R127). -/
def execSneReg (x y : Reg) (s : State) : Result :=
  checkRegs (.sneReg x y) x y s (.next (s.skipIf (s.reg x != s.reg y)))

/-- JP V0,addr (R128). -/
def execJpV0 (nnn : Addr) (x : Reg) (s : State) : Result :=
  withJumpOffset (.jpV0 nnn x) x s fun off => .next (s.setPc (addrPlus nnn off.toNat))

end Sys2Proof.Machine
end

