-- ==== Sys2Proof/Machine/Display.lean ====
section
/-! DEFINITION. The framebuffer instructions (44_display.md). -/

namespace Sys2Proof.Machine

open Sys2Proof

/-- CLS (R221). -/
def execCls (s : State) : Result := .next (s.setFb clearedFb)

/-- DRW Vx,Vy,n: VF the collision (R222). A height of 0 draws nothing and clears VF. -/
def execDrw (x y : Reg) (n : Nibble) (s : State) : Result :=
  checkRegs (.drw x y n) x y s (.next ((s.setFb (s.drawn x y n).1).setFlag (s.drawn x y n).2))

end Sys2Proof.Machine
end

