-- ==== Sys2Proof/Machine/Extended.lean ====
section
/-! DEFINITION. The extended markers (60_exceptions.md R284): a fault, or a 2-byte no-op, as EXT_BEHAVIOUR says. -/

namespace Sys2Proof.Machine

open Sys2Proof

/-- `execute_extended(op)` (R284). -/
def executeExtended (op : Opcode) (s : State) : Result :=
  match s.cfg.extBehaviour with
  | .fault => .fault (.unimplementedExtended s.instrAddr op)
  | .noOp => .next s

/-- The marker 00Cn (R97, R284). -/
def execExt00Cn (n : Nibble) (s : State) : Result := executeExtended (encode (.ext00Cn n)) s

/-- The marker 00Dn (R97, R284). -/
def execExt00Dn (n : Nibble) (s : State) : Result := executeExtended (encode (.ext00Dn n)) s

/-- The marker 00FB (R97, R284). -/
def execExt00FB (s : State) : Result := executeExtended (encode .ext00FB) s

/-- The marker 00FC (R97, R284). -/
def execExt00FC (s : State) : Result := executeExtended (encode .ext00FC) s

/-- The marker 00FD (R97, R284). -/
def execExt00FD (s : State) : Result := executeExtended (encode .ext00FD) s

/-- The marker 00FE (R97, R284). -/
def execExt00FE (s : State) : Result := executeExtended (encode .ext00FE) s

/-- The marker 00FF (R97, R284). -/
def execExt00FF (s : State) : Result := executeExtended (encode .ext00FF) s

/-- The marker Dxy0 (R97, R284). -/
def execExtDxy0 (x y : Reg) (s : State) : Result := executeExtended (encode (.extDxy0 x y)) s

/-- The marker Fx30 (R97, R284). -/
def execExtFx30 (x : Reg) (s : State) : Result := executeExtended (encode (.extFx30 x)) s

/-- The marker Fx75 (R97, R284). -/
def execExtFx75 (x : Reg) (s : State) : Result := executeExtended (encode (.extFx75 x)) s

/-- The marker Fx85 (R97, R284). -/
def execExtFx85 (x : Reg) (s : State) : Result := executeExtended (encode (.extFx85 x)) s

end Sys2Proof.Machine
end

