-- ==== Sys2Proof/Machine/IndexMem.lean ====
section
/-! DEFINITION. The index register and memory transfers (43_index_memory.md). -/

namespace Sys2Proof.Machine

open Sys2Proof

/-- LDI addr (R190). -/
def execLdI (nnn : Addr) (s : State) : Result := .next (s.setI nnn)

/-- ADD I,Vx: wraps modulo 4096, no flag (R191). -/
def execAddI (x : Reg) (s : State) : Result :=
  checkReg (.addI x) x s (.next (s.setI (addrPlus s.i (s.reg x).toNat)))

/-- LD F,Vx (R192). -/
def execLdF (x : Reg) (s : State) : Result :=
  checkReg (.ldF x) x s (withFontAddr (.ldF x) (s.reg x) s fun a => .next (s.setI a))

/-- LD B,Vx: three decimal digits at I (R193). -/
def execLdB (x : Reg) (s : State) : Result :=
  checkReg (.ldB x) x s (.next (s.setMem (memWriteBytes s.mem s.i (bcdDigits (s.reg x)))))

/-- LD [I],Vx: V0 to Vx to memory, I advanced by x + 1 (R194). -/
def execStRegs (x : Reg) (s : State) : Result :=
  checkReg (.stRegs x) x s
    (.next ((s.setMem (memWriteBytes s.mem s.i (s.regsUpTo x))).setI (addrPlus s.i (x.val + 1))))

/-- LD Vx,[I]: V0 to Vx from memory, I advanced by x + 1 (R195). -/
def execLdRegs (x : Reg) (s : State) : Result :=
  checkReg (.ldRegs x) x s (.next ((s.loadRegs x).setI (addrPlus s.i (x.val + 1))))

end Sys2Proof.Machine
end

