-- ==== Sys2Proof/Machine/TimersKeys.lean ====
section
/-! DEFINITION. The timer and keypad instructions and the key wait (45_timers_keys.md). -/

namespace Sys2Proof.Machine

open Sys2Proof

/-- LD Vx,DT (R252). -/
def execLdFromDT (x : Reg) (s : State) : Result := checkReg (.ldFromDT x) x s (.next (s.setReg x s.dt))

/-- LD DT,Vx (R253). -/
def execLdDT (x : Reg) (s : State) : Result := checkReg (.ldDT x) x s (.next (s.setDT (s.reg x)))

/-- LD ST,Vx (R254). -/
def execLdST (x : Reg) (s : State) : Result := checkReg (.ldST x) x s (.next (s.setST (s.reg x)))

/-- SKP Vx (R255). -/
def execSkp (x : Reg) (s : State) : Result :=
  checkReg (.skp x) x s (withKeyIndex (.skp x) (s.reg x) s fun k => .next (s.skipIf (s.keyDown k)))

/-- SKNP Vx (R256). -/
def execSknp (x : Reg) (s : State) : Result :=
  checkReg (.sknp x) x s (withKeyIndex (.sknp x) (s.reg x) s fun k => .next (s.skipIf (!s.keyDown k)))

/-- LD Vx,K on its first execution: the lowest pressed key, or the wait (R257). -/
def execLdK (x : Reg) (s : State) : Result :=
  checkReg (.ldK x) x s
    (match s.lowestPressed with
     | some b => .next (s.setReg x b)
     | none => .next (s.setExec (.waitingForKey x)))

/-- The cycle in WaitingForKey(x): no fetch, pc left alone (R258). -/
def resolveKeyWait (x : Reg) (s : State) : Result :=
  match s.lowestPressed with
  | some b => .next ((s.setReg x b).setExec .running)
  | none => .next s

end Sys2Proof.Machine
end

