-- ==== Sys2Proof/Machine/Cycle.lean ====
section
/-! DEFINITION. Fetch, decode and the cycle (30_encoding.md R103). -/

namespace Sys2Proof.Machine

open Sys2Proof

/-- The opcode at pc (R63, R103). -/
def State.fetched (s : State) : Opcode := memReadWord s.mem s.pc

/-- The opcode at pc decoded under the machine's EXTENDED_SET (R95, R103). -/
def State.decoded (s : State) : Decoded := decode s.cfg.extendedSet s.fetched

/-- Execute a decoded opcode, in the state after the fetch's advance (R103, R105). -/
def executeDecoded (d : Decoded) (s : State) : Result :=
  match d with
  | .instr i => exec i s
  | .extended op => executeExtended op s
  | .invalid op => .fault (.decodeFailure s.instrAddr op)

/-- `cycle()` (R103): nothing after a fault (R281); one instruction when Running; the held LD Vx,K when waiting (R258). -/
def runCycle (s : State) : Result :=
  match s.fault with
  | some _ => .next s
  | none =>
    match s.execState with
    | .running => executeDecoded s.decoded s.advance
    | .waitingForKey x => resolveKeyWait x s

/-- An opcode stored where the next fetch reads it, and the machine ready to fetch it: running, with no fault recorded
(log entry 24, safe). -/
def placeOpcode (s : State) (op : Opcode) : State :=
  { s with mem := memWriteBytes s.mem s.pc [hiByte op, loByte op], execState := .running, fault := none }

end Sys2Proof.Machine
end

