-- ==== Sys2Proof/Machine/Step.lean ====
section
/-! DEFINITION. One step is one call of `cycle()` (60_exceptions.md R298). -/

namespace Sys2Proof.Machine

open Sys2Proof

/-- One step: one call of `cycle()` (R103, R298). -/
def step (s : State) : Host.Outcome State Fault Refusal := runCycle s

/-- The state with a table word stored where `step` fetches its next instruction. -/
def State.withFetchWord (s : State) (nbits w : Nat) : State := placeOpcode s (tableOpcode nbits w)

end Sys2Proof.Machine
end

