-- ==== Sys2Proof/Machine/HostPort.lean ====
section
/-! DEFINITION. The host's entry points (60_exceptions.md R295 to R303) and the construction (70_reset_and_hazards.md
R320). Each is one atomic transaction between cycles. -/

namespace Sys2Proof.Machine

open Sys2Proof

/-! ## Construction -/

/-- The launch parameters `init.*`: what the spec gives no value for at construction (R11, R43, R321), and
which oracle `rnd` its draws come from (R11). Two machines launched with one oracle number draw the same bytes: DESIGN
CHOICE, log entry 13, unsafe. -/
structure Launch where
  v : Vector Byte 16
  i : Addr
  dt : Byte
  st : Byte
  fb : Framebuffer
  key : Vector Bool 16
  mem : Memory
  oracle : Nat
deriving DecidableEq, Repr

/-- `loadFont`: the 80 bytes of FONT from 0x050 on (R64). -/
def loadFont (m : Memory) (font : Vector Byte 80) : Memory := memWriteBytes m (mask12 fontBase) font.toList

/-- The construction (R296, R320): the values of R43, every other piece of state at its launch parameter, the font
loaded. -/
def State.construct (cfg : Config) (init : Launch) : State where
  v := init.v
  i := init.i
  pc := 0x200#12
  stack := []
  dt := init.dt
  st := init.st
  key := init.key
  fb := init.fb
  mem := loadFont init.mem cfg.font
  execState := .running
  fault := none
  cfg := cfg
  oracle := init.oracle
  draws := 0
  stage := .constructed

/-- The launch parameters of State.reset: all zero (log entries 3 to 8 and 13, unsafe). -/
def zeroLaunch : Launch where
  v := Vector.replicate 16 0
  i := 0
  dt := 0
  st := 0
  fb := Vector.replicate 32 0
  key := Vector.replicate 16 false
  mem := []
  oracle := 0

/-! ## The entry points that change the state -/

/-- The most bytes a program may have, 0x1000 - 0x200 (R66). -/
def maxProgram : Nat := 3584

/-- The address programs are loaded at (R66). -/
def programBase : Addr := 0x200#12

/-- `loadProgram(bytes)` (R66), refused at any time but once before the first cycle (R297). On a machine with a fault
recorded it is refused too: DESIGN CHOICE, log entry 20, safe. -/
def loadProgram (bytes : List Byte) (s : State) : Result :=
  if s.stage = .constructed ∧ s.fault = none then
    if bytes.length ≤ maxProgram then
      .next { s with mem := memWriteBytes s.mem programBase bytes, stage := .loaded }
    else .fault (.programTooLarge bytes.length)
  else .refused .loadProgramOutOfTurn

/-- `tick()` (R250): both timers down by one, floored at 0; nothing after a fault (R281). -/
def tick (s : State) : State :=
  match s.fault with
  | some _ => s
  | none => { s with dt := timerTick s.dt, st := timerTick s.st }

/-- `key[k] <- down` for a logical key (R299). A recorded fault does not stop it: DESIGN CHOICE, log entry 19, safe. -/
def setKey (k : Key) (down : Bool) (s : State) : State := { s with key := s.key.set k.val down }

/-- press and release with the index the host sends, refused above 15 (R299). -/
def hostKey (k : Nat) (down : Bool) (s : State) : Result :=
  if h : k < 16 then .next (setKey ⟨k, h⟩ down s) else .refused (.keyOutsideInterface k)

/-- The entry points of the host that may change the state (R295, R306). -/
inductive Transaction where
  | loadProgram (bytes : List Byte)
  | cycle
  | tick
  | press (k : Nat)
  | release (k : Nat)
deriving DecidableEq, Repr

/-- One transaction (R295 to R300). -/
def transact (t : Transaction) (s : State) : Result :=
  match t with
  | .loadProgram bytes => loadProgram bytes s
  | .cycle => step s
  | .tick => .next (tick s)
  | .press k => hostKey k true s
  | .release k => hostKey k false s

/-- A host's calls one after another, in any order and number (R303), up to the first fault or refusal. -/
def transactAll : List Transaction → State → Result
  | [], s => .next s
  | t :: ts, s =>
    match transact t s with
    | .next s' => transactAll ts s'
    | .fault r => .fault r
    | .refused q => .refused q

/-! ## The entry points that only read -/

/-- `isSoundActive()` (R251, R301). -/
def isSoundActive (s : State) : Bool := decide (s.st.toNat > 0)

/-- The framebuffer accessor (R302). -/
def framebuffer (s : State) : Framebuffer := s.fb

/-! ## The recorded fault (R41, R281, R282) -/

/-- FREE VALUE. The rest of the state after a fault, which the spec leaves unspecified (R281; log entry 14, safe). -/
opaque afterFault : State → Fault → State

/-- The state after a fault: the record in the fault slot and the configuration as it was; the rest is unspecified (R10,
R41, R281). -/
def State.recordFault (s : State) (r : Fault) : State := { afterFault s r with fault := some r, cfg := s.cfg }

/-- What a transaction gives the host: the state after it with the fault record, if there is one (R282, R298), or `none`
where it is refused. -/
def transactRecorded (t : Transaction) (s : State) : Option (State × Option Fault) :=
  match transact t s with
  | .next s' => some (s', none)
  | .fault r => some (s.recordFault r, some r)
  | .refused _ => none

end Sys2Proof.Machine
end

