-- ==== Sys2Proof/Safety.lean ====
section
/-! DEFINITION. What counts as a good run: one that has not faulted, and the convention for its end (60_exceptions.md R304). -/

namespace Sys2Proof.Safety

open Sys2Proof Sys2Proof.Machine

/-- A faulted machine (R304): never a good end. -/
def faulted (s : State) : Bool := s.fault.isSome

/-- The opcode of a jump to its own address, `0x1000 | pc` (R304). -/
def selfJump (a : Addr) : Opcode := encode (.jp a)

/-- A parked machine (R304): no fault, running, and the opcode at pc is the word of a jump to its own address and decodes to
that jump (R95), no pattern of the machine's EXTENDED_SET taking it. -/
def parked (s : State) : Bool :=
  s.fault == none && s.execState == .running && s.fetched == selfJump s.pc && s.decoded == .instr (.jp s.pc)

/-- The invariant of the machine: memory in its canonical form, at most 16 return addresses (R30), and a wait only for a
register the policy lets an instruction name (R257, R258). -/
def StateInv (s : State) : Prop :=
  s.mem.wf ∧ s.stack.length ≤ stackDepth ∧ ∀ x, s.execState = .waitingForKey x → s.allows x = true

/-! ## Terms the claims use -/

/-- How an instruction that names register 15 by index stops (R22, R280, R282). -/
def reservedFault (i : Instr) (s : State) : Result := .fault (.reservedRegister s.instrAddr (encode i) 15)

/-- The illegal opcodes of R98, by top nibble and low bits. -/
abbrev illegalOpcode (op : Opcode) : Prop :=
  (op.toNat / 4096 = 0x5 ∧ op.toNat % 16 ≠ 0) ∨
    (op.toNat / 4096 = 0x8 ∧ op.toNat % 16 ∈ [0x8, 0x9, 0xA, 0xB, 0xC, 0xD, 0xF]) ∨
    (op.toNat / 4096 = 0x9 ∧ op.toNat % 16 ≠ 0) ∨
    (op.toNat / 4096 = 0xE ∧ op.toNat % 256 ∉ [0x9E, 0xA1]) ∨
    (op.toNat / 4096 = 0xF ∧
      op.toNat % 256 ∉ [0x07, 0x0A, 0x15, 0x18, 0x1E, 0x29, 0x30, 0x33, 0x55, 0x65, 0x75, 0x85])

/-- The instructions of R27 that may move pc beyond the fetch's advance. -/
def movesPc : Instr → Bool
  | .sys _ | .jp _ | .call _ | .ret | .jpV0 _ _ | .seImm _ _ | .sneImm _ _ | .seReg _ _ | .sneReg _ _ | .skp _
  | .sknp _ => true
  | .cls | .ldImm _ _ | .addImm _ _ | .ldReg _ _ | .orReg _ _ | .andReg _ _ | .xorReg _ _ | .addReg _ _ | .sub _ _
  | .shr _ _ | .subn _ _ | .shl _ _ | .ldI _ | .rnd _ _ | .drw _ _ _ | .ldFromDT _ | .ldK _ | .ldDT _ | .ldST _
  | .addI _ | .ldF _ | .ldB _ | .stRegs _ | .ldRegs _ | .ext00Cn _ | .ext00Dn _ | .ext00FB | .ext00FC | .ext00FD
  | .ext00FE | .ext00FF | .extDxy0 _ _ | .extFx30 _ | .extFx75 _ | .extFx85 _ => false

/-- Whether some visible 1 bit of the sprite of DRW Vx,Vy,n lands on the pixel in row `ty` and column `tx` (R222). -/
def spriteHits (s : State) (x y : Reg) (n : Nibble) (ty : Fin 32) (tx : Fin 64) : Prop :=
  ∃ row < n.toNat, ∃ col < 8, (memRead s.mem (mask12 (s.i.toNat + row))).getLsbD (7 - col) = true ∧
    target s.cfg.drawEdge ((s.reg x).toNat + col) ((s.reg y).toNat + row) = some (ty, tx)

end Sys2Proof.Safety
end

