-- ==== Sys2Proof/Certificates/Slice0/Obligations.lean ====
section
/-! DEFINITION. The statements for the provers. In the statements about an instruction the state `s` is the one after the
fetch's advance (30_encoding.md R103), the instruction's own address is `s.instrAddr`, and each instruction's encoding is
stated beside its effect: the spec's own encoding, most of them by its mark from general knowledge (log entry 12). Where the
spec marks a rule as its own decision Dn, the statement's title names it. A conclusion of the form `t = { s with … }` is the frame: every field not named after `with` is
unchanged, and so every byte of memory where `mem` is not named. -/

open Sys2Proof Sys2Proof.Machine Sys2Proof.Safety

/-! ## Encoding -/

/-- R91, R93, R95, R97: under the default EXTENDED_SET, the word of a well-formed instruction decodes to it, with every
operand at every value. -/
def Obligations.DecodeOfEncode : Prop :=
  ∀ i : Instr, i.wf = true → decode defaultExtendedSet (encode i) = .instr i

/-- R90, R91, R95: whatever the EXTENDED_SET, an opcode that decodes to an instruction is that instruction's word, and under
the default set the instruction is well-formed. -/
def Obligations.EncodeOfDecode : Prop :=
  (∀ (ext : List Pattern) (op : Opcode) (i : Instr), decode ext op = .instr i → encode i = op) ∧
    ∀ (op : Opcode) (i : Instr), decode defaultExtendedSet op = .instr i → i.wf = true

/-- R94, R96, R98: under the default EXTENDED_SET the opcodes that decode to Invalid are exactly the illegal ones, and every
other opcode is an instruction of the table. -/
def Obligations.IllegalOpcodesAreInvalid : Prop :=
  ∀ op : Opcode, (illegalOpcode op → decode defaultExtendedSet op = .invalid op) ∧
    (¬ illegalOpcode op → ∃ i, decode defaultExtendedSet op = .instr i)

/-- R93 (evidenced words), R95, R97: words written out from the spec's encodings decode to what they stand for. -/
def Obligations.SampleWordsDecode : Prop :=
  decodeBytes defaultExtendedSet 0x00 0xEE = .instr .ret ∧ decodeBytes defaultExtendedSet 0x22 0x00 = .instr (.call 0x200) ∧
    decodeBytes defaultExtendedSet 0x60 0x0A = .instr (.ldImm 0 0x0A) ∧
    decodeBytes defaultExtendedSet 0x80 0x14 = .instr (.addReg 0 1) ∧
    decodeBytes defaultExtendedSet 0xB1 0x23 = .instr (.jpV0 0x123 1) ∧
    decodeBytes defaultExtendedSet 0xF2 0x0A = .instr (.ldK 2) ∧ decodeBytes defaultExtendedSet 0xA2 0xF0 = .instr (.ldI 0x2F0) ∧
    decodeBytes defaultExtendedSet 0xD1 0x21 = .instr (.drw 1 2 1) ∧
    decodeBytes defaultExtendedSet 0xD1 0x20 = .instr (.extDxy0 1 2) ∧ decodeBytes defaultExtendedSet 0x51 0x21 = .invalid 0x5121

/-! ## The cycle -/

/-- R103, R26, R63: when the two bytes at pc decode to an instruction, one step of a running machine is that instruction's
meaning in the state after the advance of pc by 2 (and with the model's own stage set to started, log entry 17). -/
def Obligations.StepRunsDecodedInstruction : Prop :=
  ∀ (s : State) (i : Instr), s.fault = none → s.execState = .running →
    decode s.cfg.extendedSet (memRead s.mem s.pc ++ memRead s.mem (mask12 (s.pc.toNat + 1))) = .instr i →
    step s = exec i { s with pc := mask12 (s.pc.toNat + 2), stage := .started }

/-- R98, R103, R285: a running machine that fetches an illegal opcode under the default EXTENDED_SET stops with
DecodeFailure at the opcode's own address. -/
def Obligations.IllegalOpcodeStops : Prop :=
  ∀ s : State, s.fault = none → s.execState = .running → s.cfg.extendedSet = defaultExtendedSet →
    illegalOpcode s.fetched → step s = .fault (.decodeFailure s.pc s.fetched)

/-- R282, R286: a fault of a cycle names the address and the opcode the cycle fetched; only a running machine raises one;
ProgramTooLarge names neither. -/
def Obligations.FaultNamesFetchedInstruction : Prop :=
  (∀ (s : State) (r : Fault), step s = .fault r →
    s.fault = none ∧ s.execState = .running ∧ r.addr = some s.pc ∧ r.opcode = some s.fetched) ∧
  ∀ n : Nat, (Fault.programTooLarge n).addr = none ∧ (Fault.programTooLarge n).opcode = none

/-- R281, R41: a transaction that faults leaves its record in the fault slot; with a record there, cycle and tick change
nothing; and no transaction clears or changes it. -/
def Obligations.FaultIsTerminal : Prop :=
  (∀ (tr : Transaction) (s : State) (r : Fault), transact tr s = .fault r →
    ∃ t, transactRecorded tr s = some (t, some r) ∧ t.fault = some r) ∧
  (∀ s : State, s.fault ≠ none → step s = .next s ∧ transact .tick s = .next s) ∧
  ∀ (tr : Transaction) (s t : State) (r : Fault), s.fault = some r → transact tr s = .next t → t.fault = some r

/-- R280, R284 and the refusals of R297, R299: a step never refuses. -/
def Obligations.StepNeverRefuses : Prop :=
  ∀ (s : State) (q : Refusal), step s ≠ .refused q

/-! ## Addresses and memory -/

/-- R61: masking keeps the low 12 bits, and an access at base + k reaches the masked sum. -/
def Obligations.AddressesAreMasked : Prop :=
  (∀ v : Nat, (mask12 v).toNat = v &&& 0xFFF) ∧ ∀ (a : Addr) (k : Nat), (addrPlus a k).toNat = (a.toNat + k) &&& 0xFFF

/-- R62: a byte written to any address is read back from it, and every other byte reads as before. -/
def Obligations.ReadAfterWrite : Prop :=
  ∀ (m : Memory) (a a' : Addr) (b : Byte), memRead (memWrite m a b) a' = if a' = a then b else memRead m a'

/-- R63, R69: the 16-bit read is big-endian and its second address is masked. -/
def Obligations.WordReadIsBigEndian : Prop :=
  ∀ (m : Memory) (a : Addr),
    (memReadWord m a).toNat = (memRead m a).toNat * 256 + (memRead m (mask12 (a.toNat + 1))).toNat

/-! ## Control transfer -/

/-- R120, R121: SYS and JP set pc to nnn and change nothing else. -/
def Obligations.SysAndJpJump : Prop :=
  (∀ nnn : Addr, sysReserved nnn = false → decode defaultExtendedSet (encNNN 0x0 nnn) = .instr (.sys nnn)) ∧
  (∀ nnn : Addr, decode defaultExtendedSet (encNNN 0x1 nnn) = .instr (.jp nnn)) ∧
  ∀ (nnn : Addr) (s : State),
    exec (.sys nnn) s = .next { s with pc := nnn } ∧ exec (.jp nnn) s = .next { s with pc := nnn }

/-- R122, R31: CALL pushes pc on top and jumps; with 16 entries it stops with StackOverflow, which records the address that
could not be pushed. -/
def Obligations.CallPushesReturnAddress : Prop :=
  (∀ nnn : Addr, decode defaultExtendedSet (encNNN 0x2 nnn) = .instr (.call nnn)) ∧
  ∀ (nnn : Addr) (s : State),
    (s.stack.length < 16 → exec (.call nnn) s = .next { s with stack := s.stack ++ [s.pc], pc := nnn }) ∧
    (s.stack.length = 16 → exec (.call nnn) s = .fault (.stackOverflow s.instrAddr (encode (.call nnn)) s.pc))

/-- R123, R32: RET removes the top of the stack and jumps to it; on an empty stack it stops with StackUnderflow. -/
def Obligations.RetPopsReturnAddress : Prop :=
  decode defaultExtendedSet 0x00EE#16 = .instr .ret ∧
  ∀ s : State,
    (∀ (l : List Addr) (a : Addr), s.stack = l ++ [a] → exec .ret s = .next { s with stack := l, pc := a }) ∧
    (s.stack = [] → exec .ret s = .fault (.stackUnderflow s.instrAddr 0x00EE#16))

/-- R122, R123, R130: a RET right after a CALL gives back the state before the CALL, whatever the depth. -/
def Obligations.RetUndoesCall : Prop :=
  ∀ (nnn : Addr) (s t : State), exec (.call nnn) s = .next t → exec .ret t = .next s

/-- R124, R125: SE and SNE with a byte skip 2 bytes when Vx equals, or differs from, the byte. -/
def Obligations.SkipsOnByte : Prop :=
  (∀ (x : Reg) (kk : Byte), decode defaultExtendedSet (encXKK 0x3 x kk) = .instr (.seImm x kk) ∧
    decode defaultExtendedSet (encXKK 0x4 x kk) = .instr (.sneImm x kk)) ∧
  ∀ (x : Reg) (kk : Byte) (s : State),
    (s.allows x = true →
      exec (.seImm x kk) s = .next { s with pc := if s.reg x = kk then mask12 (s.pc.toNat + 2) else s.pc } ∧
      exec (.sneImm x kk) s = .next { s with pc := if s.reg x = kk then s.pc else mask12 (s.pc.toNat + 2) }) ∧
    (s.allows x = false →
      exec (.seImm x kk) s = reservedFault (.seImm x kk) s ∧ exec (.sneImm x kk) s = reservedFault (.sneImm x kk) s)

/-- R126, R127: SE and SNE with two registers skip 2 bytes when they are equal, or differ. -/
def Obligations.SkipsOnRegister : Prop :=
  (∀ x y : Reg, decode defaultExtendedSet (encXYN 0x5 x y 0x0) = .instr (.seReg x y) ∧
    decode defaultExtendedSet (encXYN 0x9 x y 0x0) = .instr (.sneReg x y)) ∧
  (∀ (x y : Reg) (n : Nibble), n ≠ 0 →
    decode defaultExtendedSet (encXYN 0x5 x y n) = .invalid (encXYN 0x5 x y n) ∧
    decode defaultExtendedSet (encXYN 0x9 x y n) = .invalid (encXYN 0x9 x y n)) ∧
  ∀ (x y : Reg) (s : State),
    (s.allows x = true → s.allows y = true →
      exec (.seReg x y) s = .next { s with pc := if s.reg x = s.reg y then mask12 (s.pc.toNat + 2) else s.pc } ∧
      exec (.sneReg x y) s = .next { s with pc := if s.reg x = s.reg y then s.pc else mask12 (s.pc.toNat + 2) }) ∧
    ((s.allows x && s.allows y) = false →
      exec (.seReg x y) s = reservedFault (.seReg x y) s ∧ exec (.sneReg x y) s = reservedFault (.sneReg x y) s)

/-- R128: JP V0,addr adds V0, or under JUMP_OFFSET_REG = VX the register x names, and masks the sum; x is checked only in
the second case. -/
def Obligations.JumpWithOffset : Prop :=
  (∀ (nnn : Addr) (x : Reg), x.val = nnn.toNat / 256 →
    decode defaultExtendedSet (encNNN 0xB nnn) = .instr (.jpV0 nnn x)) ∧
  ∀ (nnn : Addr) (x : Reg) (s : State),
    (s.cfg.jumpOffsetReg = .v0 →
      exec (.jpV0 nnn x) s = .next { s with pc := mask12 (nnn.toNat + (s.reg 0).toNat) }) ∧
    (s.cfg.jumpOffsetReg = .vx → s.allows x = true →
      exec (.jpV0 nnn x) s = .next { s with pc := mask12 (nnn.toNat + (s.reg x).toNat) }) ∧
    (s.cfg.jumpOffsetReg = .vx → s.allows x = false → exec (.jpV0 nnn x) s = reservedFault (.jpV0 nnn x) s)

/-! ## Loads and arithmetic -/

/-- R151, R153: LD Vx,byte and LD Vx,Vy write Vx alone. -/
def Obligations.LoadsWriteOneRegister : Prop :=
  (∀ (x y : Reg) (kk : Byte), decode defaultExtendedSet (encXKK 0x6 x kk) = .instr (.ldImm x kk) ∧
    decode defaultExtendedSet (encXYN 0x8 x y 0x0) = .instr (.ldReg x y)) ∧
  (∀ (x : Reg) (kk : Byte) (s : State),
    (s.allows x = true → ∃ t, exec (.ldImm x kk) s = .next t ∧
      (∀ r, t.reg r = if r = x then kk else s.reg r) ∧ t = { s with v := t.v }) ∧
    (s.allows x = false → exec (.ldImm x kk) s = reservedFault (.ldImm x kk) s)) ∧
  ∀ (x y : Reg) (s : State),
    (s.allows x = true → s.allows y = true → ∃ t, exec (.ldReg x y) s = .next t ∧
      (∀ r, t.reg r = if r = x then s.reg y else s.reg r) ∧ t = { s with v := t.v }) ∧
    ((s.allows x && s.allows y) = false → exec (.ldReg x y) s = reservedFault (.ldReg x y) s)

/-- R150: checked add and subtract give the wrapped result and whether the exact one is out of range. -/
def Obligations.CheckedArithmetic : Prop :=
  ∀ a b : Byte,
    (checkedAdd a b).1.toNat = (a.toNat + b.toNat) % 256 ∧ ((checkedAdd a b).2 = true ↔ a.toNat + b.toNat > 255) ∧
    ((checkedSub a b).1.toNat : Int) = ((a.toNat : Int) - (b.toNat : Int)) % 256 ∧
    ((checkedSub a b).2 = true ↔ a.toNat < b.toNat)

/-- R152: ADD Vx,byte wraps and writes no flag. -/
def Obligations.AddByteWritesNoFlag : Prop :=
  (∀ (x : Reg) (kk : Byte), decode defaultExtendedSet (encXKK 0x7 x kk) = .instr (.addImm x kk)) ∧
  ∀ (x : Reg) (kk : Byte) (s : State),
    (s.allows x = true → ∃ t, exec (.addImm x kk) s = .next t ∧
      (∀ r, (t.reg r).toNat = if r = x then ((s.reg x).toNat + kk.toNat) % 256 else (s.reg r).toNat) ∧
      t = { s with v := t.v }) ∧
    (s.allows x = false → exec (.addImm x kk) s = reservedFault (.addImm x kk) s)

/-- R154, R155, R156, R162: OR, AND and XOR write Vx bit by bit, and VF becomes 0 under LOGIC_VF = Zero alone. -/
def Obligations.LogicOperations : Prop :=
  (∀ x y : Reg, decode defaultExtendedSet (encXYN 0x8 x y 0x1) = .instr (.orReg x y) ∧
    decode defaultExtendedSet (encXYN 0x8 x y 0x2) = .instr (.andReg x y) ∧
    decode defaultExtendedSet (encXYN 0x8 x y 0x3) = .instr (.xorReg x y)) ∧
  ∀ (x y : Reg) (s : State),
    (s.allows x = true → s.allows y = true →
      (∃ t, exec (.orReg x y) s = .next t ∧ t = { s with v := t.v } ∧
        ∀ r, t.reg r = if s.cfg.logicVF = .zero ∧ r = 15 then 0 else if r = x then s.reg x ||| s.reg y else s.reg r) ∧
      (∃ t, exec (.andReg x y) s = .next t ∧ t = { s with v := t.v } ∧
        ∀ r, t.reg r = if s.cfg.logicVF = .zero ∧ r = 15 then 0 else if r = x then s.reg x &&& s.reg y else s.reg r) ∧
      ∃ t, exec (.xorReg x y) s = .next t ∧ t = { s with v := t.v } ∧
        ∀ r, t.reg r = if s.cfg.logicVF = .zero ∧ r = 15 then 0 else if r = x then s.reg x ^^^ s.reg y else s.reg r) ∧
    ((s.allows x && s.allows y) = false →
      exec (.orReg x y) s = reservedFault (.orReg x y) s ∧ exec (.andReg x y) s = reservedFault (.andReg x y) s ∧
      exec (.xorReg x y) s = reservedFault (.xorReg x y) s)

/-- R157, R162: ADD Vx,Vy writes the wrapped sum to Vx, then the carry to VF. -/
def Obligations.AddSetsCarry : Prop :=
  (∀ x y : Reg, decode defaultExtendedSet (encXYN 0x8 x y 0x4) = .instr (.addReg x y)) ∧
  ∀ (x y : Reg) (s : State),
    (s.allows x = true → s.allows y = true → ∃ t, exec (.addReg x y) s = .next t ∧
      (∀ r, (t.reg r).toNat =
        if r = 15 then (if (s.reg x).toNat + (s.reg y).toNat > 255 then 1 else 0)
        else if r = x then ((s.reg x).toNat + (s.reg y).toNat) % 256 else (s.reg r).toNat) ∧
      t = { s with v := t.v }) ∧
    ((s.allows x && s.allows y) = false → exec (.addReg x y) s = reservedFault (.addReg x y) s)

/-- R158, R160, R162: SUB and SUBN write the wrapped difference to Vx, then the not-borrow to VF. -/
def Obligations.SubtractionsSetNotBorrow : Prop :=
  (∀ x y : Reg, decode defaultExtendedSet (encXYN 0x8 x y 0x5) = .instr (.sub x y) ∧
    decode defaultExtendedSet (encXYN 0x8 x y 0x7) = .instr (.subn x y)) ∧
  ∀ (x y : Reg) (s : State),
    (s.allows x = true → s.allows y = true →
      (∃ t, exec (.sub x y) s = .next t ∧ t = { s with v := t.v } ∧
        ∀ r, ((t.reg r).toNat : Int) =
          if r = 15 then (if (s.reg x).toNat ≥ (s.reg y).toNat then 1 else 0)
          else if r = x then (((s.reg x).toNat : Int) - (s.reg y).toNat) % 256 else (s.reg r).toNat) ∧
      ∃ t, exec (.subn x y) s = .next t ∧ t = { s with v := t.v } ∧
        ∀ r, ((t.reg r).toNat : Int) =
          if r = 15 then (if (s.reg y).toNat ≥ (s.reg x).toNat then 1 else 0)
          else if r = x then (((s.reg y).toNat : Int) - (s.reg x).toNat) % 256 else (s.reg r).toNat) ∧
    ((s.allows x && s.allows y) = false →
      exec (.sub x y) s = reservedFault (.sub x y) s ∧ exec (.subn x y) s = reservedFault (.subn x y) s)

/-- R159, R161, R162, R22: SHR and SHL shift the register SHIFT_SOURCE names by one into Vx, then write the bit shifted out
to VF; y is checked only where it is the source. -/
def Obligations.ShiftsSetBitShiftedOut : Prop :=
  (∀ x y : Reg, decode defaultExtendedSet (encXYN 0x8 x y 0x6) = .instr (.shr x y) ∧
    decode defaultExtendedSet (encXYN 0x8 x y 0xE) = .instr (.shl x y)) ∧
  ∀ (x y src : Reg) (s : State),
    (s.cfg.shiftSource = .vy ∧ src = y ∨ s.cfg.shiftSource = .vx ∧ src = x) →
    (s.allows x = true → s.allows src = true →
      (∃ t, exec (.shr x y) s = .next t ∧ t = { s with v := t.v } ∧
        ∀ r, (t.reg r).toNat =
          if r = 15 then (s.reg src).toNat % 2 else if r = x then (s.reg src).toNat / 2 else (s.reg r).toNat) ∧
      ∃ t, exec (.shl x y) s = .next t ∧ t = { s with v := t.v } ∧
        ∀ r, (t.reg r).toNat =
          if r = 15 then (s.reg src).toNat / 128 else if r = x then (s.reg src).toNat * 2 % 256
          else (s.reg r).toNat) ∧
    ((s.allows x && s.allows src) = false →
      exec (.shr x y) s = reservedFault (.shr x y) s ∧ exec (.shl x y) s = reservedFault (.shl x y) s)

/-- R164: RND writes a drawn byte under the mask to Vx; the byte is the free value of the draw, and the next execution draws
anew (the oracle's number and the counter of draws are the model's own fields, log entry 13; the statement holds for every
value of them). -/
def Obligations.RandomUnderMask : Prop :=
  (∀ (x : Reg) (kk : Byte), decode defaultExtendedSet (encXKK 0xC x kk) = .instr (.rnd x kk)) ∧
  ∀ (x : Reg) (kk : Byte) (s : State),
    (s.allows x = true → ∃ t, exec (.rnd x kk) s = .next t ∧
      (∀ r, t.reg r = if r = x then Config.rnd s.oracle s.draws &&& kk else s.reg r) ∧
      t = { s with v := t.v, draws := s.draws + 1 }) ∧
    (s.allows x = false → exec (.rnd x kk) s = reservedFault (.rnd x kk) s)

/-! ## The index register and memory -/

/-- R190, R191: LDI loads I; ADD I,Vx adds to it modulo 4096 and writes no flag. -/
def Obligations.IndexLoadAndAdd : Prop :=
  (∀ nnn : Addr, decode defaultExtendedSet (encNNN 0xA nnn) = .instr (.ldI nnn)) ∧
  (∀ x : Reg, decode defaultExtendedSet (encXKK 0xF x 0x1E) = .instr (.addI x)) ∧
  (∀ (nnn : Addr) (s : State), exec (.ldI nnn) s = .next { s with i := nnn }) ∧
  ∀ (x : Reg) (s : State),
    (s.allows x = true → exec (.addI x) s = .next { s with i := mask12 (s.i.toNat + (s.reg x).toNat) }) ∧
    (s.allows x = false → exec (.addI x) s = reservedFault (.addI x) s)

/-- R192, R65: LD F,Vx points I at the glyph of the digit in Vx; above 15, FONT_DIGIT_POLICY decides. -/
def Obligations.FontAddressOfDigit : Prop :=
  (∀ x : Reg, decode defaultExtendedSet (encXKK 0xF x 0x29) = .instr (.ldF x)) ∧
  ∀ (x : Reg) (s : State),
    (s.allows x = true → (s.reg x).toNat ≤ 15 →
      exec (.ldF x) s = .next { s with i := mask12 (0x050 + 5 * (s.reg x).toNat) }) ∧
    (s.allows x = true → (s.reg x).toNat > 15 →
      (s.cfg.fontDigitPolicy = .fault →
        exec (.ldF x) s = .fault (.fontDigitOutOfRange s.instrAddr (encode (.ldF x)) (s.reg x))) ∧
      (s.cfg.fontDigitPolicy = .unmasked →
        exec (.ldF x) s = .next { s with i := mask12 (0x050 + 5 * (s.reg x).toNat) }) ∧
      (s.cfg.fontDigitPolicy = .lowNibble →
        exec (.ldF x) s = .next { s with i := mask12 (0x050 + 5 * ((s.reg x).toNat % 16)) })) ∧
    (s.allows x = false → exec (.ldF x) s = reservedFault (.ldF x) s)

/-- R193: LD B,Vx stores the hundreds, tens and units of Vx at I, I + 1 and I + 2, wrapping, and changes nothing else; every
other byte of memory reads as before. -/
def Obligations.DecimalDigitsStored : Prop :=
  (∀ x : Reg, decode defaultExtendedSet (encXKK 0xF x 0x33) = .instr (.ldB x)) ∧
  ∀ (x : Reg) (s : State),
    (s.allows x = true → ∃ t, exec (.ldB x) s = .next t ∧ t = { s with mem := t.mem } ∧
      (memRead t.mem s.i).toNat = (s.reg x).toNat / 100 ∧
      (memRead t.mem (mask12 (s.i.toNat + 1))).toNat = (s.reg x).toNat / 10 % 10 ∧
      (memRead t.mem (mask12 (s.i.toNat + 2))).toNat = (s.reg x).toNat % 10 ∧
      ∀ a, a ≠ s.i → a ≠ mask12 (s.i.toNat + 1) → a ≠ mask12 (s.i.toNat + 2) → memRead t.mem a = memRead s.mem a) ∧
    (s.allows x = false → exec (.ldB x) s = reservedFault (.ldB x) s)

/-- R194: LD [I],Vx stores V0 to Vx at I, I + 1, …, wrapping, and advances I by x + 1; every other byte of memory reads as
before. -/
def Obligations.RegistersStored : Prop :=
  (∀ x : Reg, decode defaultExtendedSet (encXKK 0xF x 0x55) = .instr (.stRegs x)) ∧
  ∀ (x : Reg) (s : State),
    (s.allows x = true → ∃ t, exec (.stRegs x) s = .next t ∧
      t = { s with mem := t.mem, i := mask12 (s.i.toNat + x.val + 1) } ∧
      (∀ k : Reg, k ≤ x → memRead t.mem (mask12 (s.i.toNat + k.val)) = s.reg k) ∧
      ∀ a, (∀ k : Reg, k ≤ x → a ≠ mask12 (s.i.toNat + k.val)) → memRead t.mem a = memRead s.mem a) ∧
    (s.allows x = false → exec (.stRegs x) s = reservedFault (.stRegs x) s)

/-- R195: LD Vx,[I] loads V0 to Vx from I, I + 1, …, wrapping, leaves the registers above x and all of memory, and advances I
by x + 1. -/
def Obligations.RegistersLoaded : Prop :=
  (∀ x : Reg, decode defaultExtendedSet (encXKK 0xF x 0x65) = .instr (.ldRegs x)) ∧
  ∀ (x : Reg) (s : State),
    (s.allows x = true → ∃ t, exec (.ldRegs x) s = .next t ∧
      t = { s with v := t.v, i := mask12 (s.i.toNat + x.val + 1) } ∧
      ∀ k : Reg, t.reg k = if k ≤ x then memRead s.mem (mask12 (s.i.toNat + k.val)) else s.reg k) ∧
    (s.allows x = false → exec (.ldRegs x) s = reservedFault (.ldRegs x) s)

/-! ## The framebuffer -/

/-- R221: CLS makes every pixel 0, VF untouched. -/
def Obligations.ClearScreen : Prop :=
  decode defaultExtendedSet 0x00E0#16 = .instr .cls ∧
  ∀ s : State, ∃ t, exec .cls s = .next t ∧ t = { s with fb := t.fb } ∧ ∀ y x, pixel t.fb y x = false

/-- R223, R224, R225: Wrap reduces both coordinates; Clip keeps the pixels on the screen alone; where the host chose neither,
one of the two is meant and the free value says which (log entry 2). -/
def Obligations.TargetPixel : Prop :=
  ∀ cx cy : Nat,
    (∃ p, target (some .wrap) cx cy = some p ∧ p.1.val = cy % 32 ∧ p.2.val = cx % 64) ∧
    (cx < 64 ∧ cy < 32 → ∃ p, target (some .clip) cx cy = some p ∧ p.1.val = cy ∧ p.2.val = cx) ∧
    (¬ (cx < 64 ∧ cy < 32) → target (some .clip) cx cy = none) ∧
    target none cx cy = target (some Config.openDrawEdge) cx cy

/-- R222, R226: DRW flips exactly the pixels that a visible 1 bit of the sprite lands on, and VF says whether one of them was
1; the sequence of plots equals this description of the whole sprite at once. -/
def Obligations.DrawFlipsSpritePixels : Prop :=
  (∀ (x y : Reg) (n : Nibble), n ≠ 0 → decode defaultExtendedSet (encXYN 0xD x y n) = .instr (.drw x y n)) ∧
  ∀ (x y : Reg) (n : Nibble) (s : State),
    (s.allows x = true → s.allows y = true → ∃ t, exec (.drw x y n) s = .next t ∧ t = { s with v := t.v, fb := t.fb } ∧
      (∀ ty tx, (spriteHits s x y n ty tx → pixel t.fb ty tx = !pixel s.fb ty tx) ∧
        (¬ spriteHits s x y n ty tx → pixel t.fb ty tx = pixel s.fb ty tx)) ∧
      (∀ r, r ≠ 15 → t.reg r = s.reg r) ∧
      ((∃ ty tx, spriteHits s x y n ty tx ∧ pixel s.fb ty tx = true) → t.reg 15 = 1) ∧
      ((¬ ∃ ty tx, spriteHits s x y n ty tx ∧ pixel s.fb ty tx = true) → t.reg 15 = 0)) ∧
    ((s.allows x && s.allows y) = false → exec (.drw x y n) s = reservedFault (.drw x y n) s)

/-- R227: the same DRW twice, with coordinates in registers other than VF, restores the pixels, and the second one reports a
collision exactly when some visible 1 bit landed on a pixel that was 0 before the first; after CLS a DRW reports none. -/
def Obligations.DrawTwiceRestores : Prop :=
  (∀ (x y : Reg) (n : Nibble) (s t u : State), x ≠ 15 → y ≠ 15 → exec (.drw x y n) s = .next t →
    exec (.drw x y n) t = .next u →
    u.fb = s.fb ∧ (u.reg 15 = 1 ↔ ∃ ty tx, spriteHits s x y n ty tx ∧ pixel s.fb ty tx = false)) ∧
  ∀ (x y : Reg) (n : Nibble) (s t u : State), exec .cls s = .next t → exec (.drw x y n) t = .next u → u.reg 15 = 0

/-! ## Timers and keys -/

/-- R252, R253, R254: the timer loads move one byte and change nothing else. -/
def Obligations.TimerLoads : Prop :=
  (∀ x : Reg, decode defaultExtendedSet (encXKK 0xF x 0x07) = .instr (.ldFromDT x) ∧
    decode defaultExtendedSet (encXKK 0xF x 0x15) = .instr (.ldDT x) ∧
    decode defaultExtendedSet (encXKK 0xF x 0x18) = .instr (.ldST x)) ∧
  ∀ (x : Reg) (s : State),
    (s.allows x = true →
      (∃ t, exec (.ldFromDT x) s = .next t ∧ (∀ r, t.reg r = if r = x then s.dt else s.reg r) ∧
        t = { s with v := t.v }) ∧
      exec (.ldDT x) s = .next { s with dt := s.reg x } ∧ exec (.ldST x) s = .next { s with st := s.reg x }) ∧
    (s.allows x = false →
      exec (.ldFromDT x) s = reservedFault (.ldFromDT x) s ∧ exec (.ldDT x) s = reservedFault (.ldDT x) s ∧
      exec (.ldST x) s = reservedFault (.ldST x) s)

/-- R255, R256, R260: SKP and SKNP skip on the state of the key Vx names; above 15, KEY_INDEX_POLICY takes the low nibble or
stops. -/
def Obligations.SkipsOnKey : Prop :=
  (∀ x : Reg, decode defaultExtendedSet (encXKK 0xE x 0x9E) = .instr (.skp x) ∧
    decode defaultExtendedSet (encXKK 0xE x 0xA1) = .instr (.sknp x)) ∧
  ∀ (x : Reg) (s : State),
    (∀ k : Key, s.allows x = true → k.val = (s.reg x).toNat % 16 →
      ((s.reg x).toNat ≤ 15 ∨ s.cfg.keyIndexPolicy = .lowNibble) →
      exec (.skp x) s = .next { s with pc := if s.key[k] = true then mask12 (s.pc.toNat + 2) else s.pc } ∧
      exec (.sknp x) s = .next { s with pc := if s.key[k] = true then s.pc else mask12 (s.pc.toNat + 2) }) ∧
    (s.allows x = true → (s.reg x).toNat > 15 → s.cfg.keyIndexPolicy = .fault →
      exec (.skp x) s = .fault (.keyIndexOutOfRange s.instrAddr (encode (.skp x)) (s.reg x)) ∧
      exec (.sknp x) s = .fault (.keyIndexOutOfRange s.instrAddr (encode (.sknp x)) (s.reg x))) ∧
    (s.allows x = false → exec (.skp x) s = reservedFault (.skp x) s ∧ exec (.sknp x) s = reservedFault (.sknp x) s)

/-- R257, R259: LD Vx,K loads the lowest pressed key at once, or with no key pressed enters the wait and changes nothing
else. -/
def Obligations.KeyLoadOrWait : Prop :=
  (∀ x : Reg, decode defaultExtendedSet (encXKK 0xF x 0x0A) = .instr (.ldK x)) ∧
  ∀ (x : Reg) (s : State),
    (∀ k : Key, s.allows x = true → s.key[k] = true → (∀ j : Key, j < k → s.key[j] = false) →
      ∃ t, exec (.ldK x) s = .next t ∧ t = { s with v := t.v } ∧
        ∀ r, (t.reg r).toNat = if r = x then k.val else (s.reg r).toNat) ∧
    (s.allows x = true → (∀ k : Key, s.key[k] = false) →
      exec (.ldK x) s = .next { s with execState := .waitingForKey x }) ∧
    (s.allows x = false → exec (.ldK x) s = reservedFault (.ldK x) s)

/-- R258, R79: a cycle in WaitingForKey(x) fetches nothing and leaves pc alone: it loads the lowest pressed key and goes back
to Running, or with no key pressed changes nothing. -/
def Obligations.WaitCycle : Prop :=
  ∀ (x : Reg) (s : State), s.fault = none → s.execState = .waitingForKey x →
    (∀ k : Key, s.key[k] = true → (∀ j : Key, j < k → s.key[j] = false) →
      ∃ t, step s = .next t ∧ t = { s with v := t.v, execState := .running } ∧
        ∀ r, (t.reg r).toNat = if r = x then k.val else (s.reg r).toNat) ∧
    ((∀ k : Key, s.key[k] = false) → step s = .next s)

/-! ## Extended markers -/

/-- R284: under EXT_BEHAVIOUR = NoOp each of the eleven extended markers changes nothing (the fetch has moved pc), under
Fault it stops with UnimplementedExtended; and so does any other opcode a host's EXTENDED_SET marks. -/
def Obligations.ExtendedMarkers : Prop :=
  (∀ (n : Nibble) (x y : Reg) (s : State),
    ∀ i ∈ [Instr.ext00Cn n, .ext00Dn n, .ext00FB, .ext00FC, .ext00FD, .ext00FE, .ext00FF, .extDxy0 x y, .extFx30 x,
      .extFx75 x, .extFx85 x],
    decode defaultExtendedSet (encode i) = .instr i ∧ (s.cfg.extBehaviour = .noOp → exec i s = .next s) ∧
      (s.cfg.extBehaviour = .fault → exec i s = .fault (.unimplementedExtended s.instrAddr (encode i)))) ∧
  ∀ s : State, s.fault = none → s.execState = .running → isExtended s.cfg.extendedSet s.fetched = true →
    (s.cfg.extBehaviour = .noOp → step s = .next { s with pc := mask12 (s.pc.toNat + 2), stage := .started }) ∧
    (s.cfg.extBehaviour = .fault → step s = .fault (.unimplementedExtended s.pc s.fetched))

/-! ## The host's entry points -/

/-- R320, R43, R64, R321: the construction, for every configuration and every launch parameter: pc at 0x200, Running, an empty
stack, no fault, the font in place, and everything else at its launch parameter. -/
def Obligations.ConstructionState : Prop :=
  ∀ (cfg : Config) (init : Launch), let s := State.construct cfg init
    s.pc = 0x200 ∧ s.execState = .running ∧ s.stack = [] ∧ s.fault = none ∧ s.cfg = cfg ∧ s.v = init.v ∧
    s.i = init.i ∧ s.dt = init.dt ∧ s.st = init.st ∧ s.fb = init.fb ∧ s.key = init.key ∧ s.oracle = init.oracle ∧
    (∀ k : Fin 80, memRead s.mem (mask12 (0x050 + k.val)) = cfg.font[k]) ∧
    ∀ a : Addr, ¬ (0x050 ≤ a.toNat ∧ a.toNat ≤ 0x09F) → memRead s.mem a = memRead init.mem a

/-- R66, R297: loadProgram, once after construction, copies the bytes to 0x200 on and touches no other byte; more than 3584
bytes stop with ProgramTooLarge; a call at any other time is refused. -/
def Obligations.ProgramLoad : Prop :=
  (∀ (cfg : Config) (init : Launch) (bytes : List Byte),
    (bytes.length ≤ 3584 → ∃ t, transact (.loadProgram bytes) (State.construct cfg init) = .next t ∧
      t = { State.construct cfg init with mem := t.mem, stage := .loaded } ∧
      (∀ k (hk : k < bytes.length), memRead t.mem (mask12 (0x200 + k)) = bytes[k]) ∧
      ∀ a : Addr, ¬ (0x200 ≤ a.toNat ∧ a.toNat < 0x200 + bytes.length) →
        memRead t.mem a = memRead (State.construct cfg init).mem a) ∧
    (bytes.length > 3584 →
      transact (.loadProgram bytes) (State.construct cfg init) = .fault (.programTooLarge bytes.length))) ∧
  ∀ (bytes bytes' : List Byte) (s t : State),
    (transact (.loadProgram bytes) s = .next t →
      transact (.loadProgram bytes') t = .refused .loadProgramOutOfTurn) ∧
    (s.fault = none → s.execState = .running → step s = .next t →
      transact (.loadProgram bytes) t = .refused .loadProgramOutOfTurn)

/-- R250, R251: a tick takes one from each timer that is above 0, changes nothing else, and does nothing after a fault; the
sound is active exactly when ST is above 0. -/
def Obligations.TimersTick : Prop :=
  ∀ s : State,
    (s.fault = none → ∃ t, transact .tick s = .next t ∧ t = { s with dt := t.dt, st := t.st } ∧
      t.dt.toNat = s.dt.toNat - 1 ∧ t.st.toNat = s.st.toNat - 1) ∧
    (s.fault ≠ none → transact .tick s = .next s) ∧
    (isSoundActive s = true ↔ s.st.toNat > 0)

/-- R299: press and release set and clear one key flag and change nothing else; an index above 15 is refused. -/
def Obligations.PressAndRelease : Prop :=
  ∀ s : State,
    (∀ k : Key, ∃ t u, transact (.press k.val) s = .next t ∧ transact (.release k.val) s = .next u ∧
      t = { s with key := t.key } ∧ u = { s with key := u.key } ∧
      ∀ j : Key, t.key[j] = (if j = k then true else s.key[j]) ∧ u.key[j] = (if j = k then false else s.key[j])) ∧
    ∀ k : Nat, k > 15 → transact (.press k) s = .refused (.keyOutsideInterface k) ∧
      transact (.release k) s = .refused (.keyOutsideInterface k)

/-! ## The whole machine -/

/-- R20, R30, R60: the invariant holds at reset (whose values the spec leaves open are the model's choice, log entries 3 to
8), and after every construction over a memory in its canonical form. -/
def Obligations.InvariantAtReset : Prop :=
  StateInv State.reset ∧ ∀ (cfg : Config) (init : Launch), init.mem.wf → StateInv (State.construct cfg init)

/-- R30, R31, R60, R61, R22, R258: every step keeps the invariant: memory in its canonical form within 4096 bytes, at most 16
return addresses, a wait only for a register the policy lets an instruction name. -/
def Obligations.StepKeepsInvariant : Prop :=
  ∀ s t : State, StateInv s → step s = .next t → StateInv t

/-- R303: whatever calls the host makes, in whatever order, from any construction, the invariant holds. -/
def Obligations.EveryHostRunKeepsInvariant : Prop :=
  ∀ (cfg : Config) (init : Launch) (calls : List Transaction) (t : State), init.mem.wf →
    transactAll calls (State.construct cfg init) = .next t → StateInv t

/-- R10, R36, R38, R41, R42: no step writes the configuration, the keypad, the fault slot or which oracle the machine draws
from (log entry 13). -/
def Obligations.StepLeavesHostState : Prop :=
  ∀ s t : State, step s = .next t → t.cfg = s.cfg ∧ t.key = s.key ∧ t.fault = s.fault ∧ t.oracle = s.oracle

/-- R24, R33, R35, R37, R40, R71: which instructions may change each piece of state: only CALL and RET the stack, only LD B
and LD [I],Vx memory, only CLS and DRW the framebuffer, only LD DT and LD ST their timers, only LD Vx,K the execution
state, only the five writers of R24 the index register. -/
def Obligations.WhoWritesWhat : Prop :=
  ∀ (i : Instr) (s t : State), exec i s = .next t →
    (t.stack ≠ s.stack → i = .ret ∨ ∃ nnn, i = .call nnn) ∧
    (t.mem ≠ s.mem → ∃ x, i = .ldB x ∨ i = .stRegs x) ∧
    (t.fb ≠ s.fb → i = .cls ∨ ∃ x y n, i = .drw x y n) ∧
    (t.dt ≠ s.dt → ∃ x, i = .ldDT x) ∧ (t.st ≠ s.st → ∃ x, i = .ldST x) ∧
    (t.execState ≠ s.execState → ∃ x, i = .ldK x) ∧
    (t.i ≠ s.i → ∃ x nnn, i = .ldI nnn ∨ i = .addI x ∨ i = .ldF x ∨ i = .stRegs x ∨ i = .ldRegs x)

/-- R23, R22: under VF_POLICY = Fault only the instructions of R23 change VF, and the value they leave there is 0 or 1. -/
def Obligations.FlagWriters : Prop :=
  ∀ (i : Instr) (s t : State), s.cfg.vfPolicy = .fault → exec i s = .next t → t.reg 15 ≠ s.reg 15 →
    (t.reg 15 = 0 ∨ t.reg 15 = 1) ∧
    ∃ (x y : Reg) (n : Nibble),
      i ∈ [Instr.addReg x y, .sub x y, .subn x y, .shr x y, .shl x y, .drw x y n] ∨
        (s.cfg.logicVF = .zero ∧ i ∈ [Instr.orReg x y, .andReg x y, .xorReg x y])

/-- R26, R27: an instruction that is no jump, call, return or skip leaves pc where the fetch put it. -/
def Obligations.SequentialInstructionsKeepPc : Prop :=
  ∀ (i : Instr) (s t : State), movesPc i = false → exec i s = .next t → t.pc = s.pc

/-- R23: under VF_POLICY = Fault a program cannot learn VF: two machines that differ in VF alone take the same steps, to
states that differ in VF alone, and stop with the same faults. -/
def Obligations.VFCannotBeLearned : Prop :=
  ∀ (s : State) (b : Byte), s.cfg.vfPolicy = .fault →
    (∀ t, step s = .next t → ∃ c, step (s.setReg 15 b) = .next (t.setReg 15 c)) ∧
    ∀ r, step s = .fault r → step (s.setReg 15 b) = .fault r

/-- R304: a parked machine stays parked, whatever its EXTENDED_SET: a cycle changes nothing (but the model's own stage on a
machine's first cycle, log entry 17), and a machine that is parked stays so under a tick, which still counts DT and ST
down. -/
def Obligations.ParkedStaysParked : Prop :=
  ∀ s : State, parked s = true →
    step s = .next { s with stage := .started } ∧ (s.stage = .started → step s = .next s) ∧
      parked { s with stage := .started } = true ∧ parked (tick s) = true

/-- R30, R31, R60, R61, R22, R258, R303: every call of the host (loadProgram, cycle, tick, press, release) that answers a next
state keeps the invariant, in every state that meets it, reachable or not. -/
def Obligations.TransactionKeepsInvariant : Prop :=
  ∀ (tr : Transaction) (s t : State), StateInv s → transact tr s = .next t → StateInv t
end

