-- ==== Sys2Proof/Laws/Decode.lean ====
section
/-! SUPPORT. The fields of an opcode as numbers, and the fields of the encoder's words. -/

namespace Sys2Proof

/-- Concatenation as arithmetic. -/
theorem toNat_append_add {m n : Nat} (a : BitVec m) (b : BitVec n) : (a ++ b).toNat = a.toNat * 2 ^ n + b.toNat := by
  rw [BitVec.toNat_append, ← Nat.shiftLeft_add_eq_or_of_lt b.isLt, Nat.shiftLeft_eq]

/-! ## Fields as numbers (R91) -/

theorem opT_toNat (op : Opcode) : (opT op).toNat = op.toNat / 4096 := by
  have := op.isLt
  simp only [opT, BitVec.extractLsb'_toNat, Nat.shiftRight_eq_div_pow]
  omega

theorem opX_val (op : Opcode) : (opX op).val = op.toNat / 256 % 16 := by
  simp only [opX, BitVec.toFin_extractLsb', Fin.val_ofNat, Nat.shiftRight_eq_div_pow]

theorem opY_val (op : Opcode) : (opY op).val = op.toNat / 16 % 16 := by
  simp only [opY, BitVec.toFin_extractLsb', Fin.val_ofNat, Nat.shiftRight_eq_div_pow]

theorem opN_toNat (op : Opcode) : (opN op).toNat = op.toNat % 16 := by
  simp only [opN, BitVec.extractLsb'_toNat, Nat.shiftRight_zero]

theorem opKK_toNat (op : Opcode) : (opKK op).toNat = op.toNat % 256 := by
  simp only [opKK, BitVec.extractLsb'_toNat, Nat.shiftRight_zero]

theorem opNNN_toNat (op : Opcode) : (opNNN op).toNat = op.toNat % 4096 := by
  simp only [opNNN, BitVec.extractLsb'_toNat, Nat.shiftRight_zero]

theorem hiByte_toNat (op : Opcode) : (hiByte op).toNat = op.toNat / 256 := by
  have := op.isLt
  simp only [hiByte, BitVec.extractLsb'_toNat, Nat.shiftRight_eq_div_pow]
  omega

theorem loByte_toNat (op : Opcode) : (loByte op).toNat = op.toNat % 256 := by
  simp only [loByte, BitVec.extractLsb'_toNat, Nat.shiftRight_zero]

theorem wordOf_toNat (hi lo : Byte) : (wordOf hi lo).toNat = hi.toNat * 256 + lo.toNat := toNat_append_add hi lo

/-- The high and low bytes of a word put together are the word (R63, R69). -/
@[simp] theorem wordOf_bytes (op : Opcode) : wordOf (hiByte op) (loByte op) = op := by
  apply BitVec.eq_of_toNat_eq
  rw [wordOf_toNat, hiByte_toNat, loByte_toNat]
  omega

/-! ## The encoder's words as numbers -/

@[simp] theorem regBits_toNat (r : Reg) : (regBits r).toNat = r.val := rfl

theorem encXKK_toNat (t : Nibble) (x : Reg) (kk : Byte) :
    (encXKK t x kk).toNat = t.toNat * 4096 + x.val * 256 + kk.toNat := by
  simp only [encXKK, toNat_append_add, regBits_toNat]
  omega

theorem encXYN_toNat (t : Nibble) (x y : Reg) (n : Nibble) :
    (encXYN t x y n).toNat = t.toNat * 4096 + x.val * 256 + y.val * 16 + n.toNat := by
  simp only [encXYN, toNat_append_add, regBits_toNat]
  omega

theorem encNNN_toNat (t : Nibble) (nnn : Addr) : (encNNN t nnn).toNat = t.toNat * 4096 + nnn.toNat :=
  toNat_append_add t nnn

/-! ## The fields of the encoder's words -/

section
variable (t n : Nibble) (x y : Reg) (kk : Byte) (nnn : Addr)

@[simp] theorem opT_encXKK : opT (encXKK t x kk) = t := by
  apply BitVec.eq_of_toNat_eq
  have := kk.isLt; have := x.isLt
  rw [opT_toNat, encXKK_toNat]; omega

@[simp] theorem opX_encXKK : opX (encXKK t x kk) = x := by
  apply Fin.ext
  have := kk.isLt; have := x.isLt
  rw [opX_val, encXKK_toNat]; omega

@[simp] theorem opKK_encXKK : opKK (encXKK t x kk) = kk := by
  apply BitVec.eq_of_toNat_eq
  have := kk.isLt
  rw [opKK_toNat, encXKK_toNat]; omega

@[simp] theorem opT_encXYN : opT (encXYN t x y n) = t := by
  apply BitVec.eq_of_toNat_eq
  have := n.isLt; have := x.isLt; have := y.isLt
  rw [opT_toNat, encXYN_toNat]; omega

@[simp] theorem opX_encXYN : opX (encXYN t x y n) = x := by
  apply Fin.ext
  have := n.isLt; have := x.isLt; have := y.isLt
  rw [opX_val, encXYN_toNat]; omega

@[simp] theorem opY_encXYN : opY (encXYN t x y n) = y := by
  apply Fin.ext
  have := n.isLt; have := x.isLt; have := y.isLt
  rw [opY_val, encXYN_toNat]; omega

@[simp] theorem opN_encXYN : opN (encXYN t x y n) = n := by
  apply BitVec.eq_of_toNat_eq
  have := n.isLt
  rw [opN_toNat, encXYN_toNat]; omega

@[simp] theorem opT_encNNN : opT (encNNN t nnn) = t := by
  apply BitVec.eq_of_toNat_eq
  have := nnn.isLt
  rw [opT_toNat, encNNN_toNat]; omega

@[simp] theorem opNNN_encNNN : opNNN (encNNN t nnn) = nnn := by
  apply BitVec.eq_of_toNat_eq
  have := nnn.isLt
  rw [opNNN_toNat, encNNN_toNat]; omega

/-- The register field of a word t nnn is the top nibble of nnn (R91). -/
theorem opX_encNNN_val : (opX (encNNN t nnn)).val = nnn.toNat / 256 := by
  have := nnn.isLt
  rw [opX_val, encNNN_toNat]; omega

end

/-! ## A word from its fields -/

theorem encXKK_fields (op : Opcode) : encXKK (opT op) (opX op) (opKK op) = op := by
  apply BitVec.eq_of_toNat_eq
  rw [encXKK_toNat, opT_toNat, opX_val, opKK_toNat]; omega

theorem encXYN_fields (op : Opcode) : encXYN (opT op) (opX op) (opY op) (opN op) = op := by
  apply BitVec.eq_of_toNat_eq
  rw [encXYN_toNat, opT_toNat, opX_val, opY_val, opN_toNat]; omega

theorem encNNN_fields (op : Opcode) : encNNN (opT op) (opNNN op) = op := by
  apply BitVec.eq_of_toNat_eq
  rw [encNNN_toNat, opT_toNat, opNNN_toNat]; omega

/-! ## Masks (R97) -/

/-- The mask 0xFFF0 keeps all but the low nibble. -/
theorem and_FFF0_eq (op : Opcode) : (op &&& 0xFFF0#16).toNat = op.toNat / 16 * 16 := by
  have h : op &&& 0xFFF0#16 = (op >>> 4) <<< 4 := by
    apply BitVec.eq_of_getLsbD_eq
    intro i hi
    interval_cases i <;> simp
  have := op.isLt
  rw [h]
  simp only [BitVec.toNat_shiftLeft, BitVec.toNat_ushiftRight, Nat.shiftLeft_eq, Nat.shiftRight_eq_div_pow]
  omega

/-- The bits of a word t x kk. -/
theorem encXKK_getLsbD (t : Nibble) (x : Reg) (kk : Byte) (i : Nat) :
    (encXKK t x kk).getLsbD i =
      if i < 8 then kk.getLsbD i else if i - 8 < 4 then (regBits x).getLsbD (i - 8) else t.getLsbD (i - 8 - 4) := by
  have h := BitVec.getLsbD_append (x := t ++ regBits x) (y := kk) (i := i)
  exact h.trans (by rw [BitVec.getLsbD_append])

/-- The bits of a word t x y n. -/
theorem encXYN_getLsbD (t : Nibble) (x y : Reg) (n : Nibble) (i : Nat) :
    (encXYN t x y n).getLsbD i =
      if i < 4 then n.getLsbD i else if i - 4 < 4 then (regBits y).getLsbD (i - 4)
      else if i - 4 - 4 < 4 then (regBits x).getLsbD (i - 4 - 4) else t.getLsbD (i - 4 - 4 - 4) := by
  have h := BitVec.getLsbD_append (x := t ++ regBits x ++ regBits y) (y := n) (i := i)
  exact h.trans (by rw [BitVec.getLsbD_append, BitVec.getLsbD_append])

/-- The mask 0xF00F keeps the top and the low nibble. -/
theorem and_F00F_eq (op : Opcode) : op &&& 0xF00F#16 = encXYN (opT op) 0 0 (opN op) := by
  apply BitVec.eq_of_getLsbD_eq
  intro i hi
  rw [encXYN_getLsbD]
  interval_cases i <;> simp [opT, opN, regBits]

/-- The mask 0xF0FF keeps the top nibble and the low byte. -/
theorem and_F0FF_eq (op : Opcode) : op &&& 0xF0FF#16 = encXKK (opT op) 0 (opKK op) := by
  apply BitVec.eq_of_getLsbD_eq
  intro i hi
  rw [encXKK_getLsbD]
  interval_cases i <;> simp [opT, opKK, regBits]

/-- The mask 0xF000 keeps the top nibble. -/
theorem and_F000_eq (op : Opcode) : op &&& 0xF000#16 = encXKK (opT op) 0 0#8 := by
  apply BitVec.eq_of_getLsbD_eq
  intro i hi
  rw [encXKK_getLsbD]
  interval_cases i <;> simp [opT, regBits]

end Sys2Proof
end

