-- ==== Sys2Proof/Laws/Framebuffer.lean ====
section
/-! SUPPORT. The laws of the framebuffer: pixels after a flip, and flips of different pixels. -/

namespace Sys2Proof.Machine

open Sys2Proof

/-- Two framebuffers are equal when every pixel is. -/
theorem framebuffer_ext {fb fb' : Framebuffer} (h : ∀ y x, pixel fb y x = pixel fb' y x) : fb = fb' := by
  apply Vector.ext
  intro y hy
  apply BitVec.eq_of_getMsbD_eq
  intro x hx
  exact h ⟨y, hy⟩ ⟨x, hx⟩

/-- A flip inverts its own pixel and leaves every other one alone. -/
theorem pixel_flipPixel (fb : Framebuffer) (y y' : Fin 32) (x x' : Fin 64) :
    pixel (flipPixel fb y x) y' x' = (pixel fb y' x' ^^ decide (y' = y ∧ x' = x)) := by
  unfold pixel flipPixel
  simp only [Fin.getElem_fin, Vector.getElem_set]
  by_cases hy : y' = y
  · subst hy
    have hb : (BitVec.twoPow 64 (63 - x.val)).getMsbD x'.val = decide (x' = x) := by
      rw [BitVec.getMsbD_twoPow]
      have := x.isLt; have := x'.isLt
      by_cases hx : x' = x
      · subst hx; simp; omega
      · have : x'.val ≠ x.val := fun e => hx (Fin.ext e)
        simp [hx]; omega
    simp [BitVec.getMsbD_xor, hb]
  · simp [hy, Fin.val_ne_of_ne (Ne.symm hy)]

/-- Every pixel of the cleared framebuffer is 0. -/
@[simp] theorem pixel_clearedFb (y : Fin 32) (x : Fin 64) : pixel clearedFb y x = false := by
  simp [pixel, clearedFb]

/-- Flipping a pixel twice is no change. -/
@[simp] theorem flipPixel_flipPixel_self (fb : Framebuffer) (y : Fin 32) (x : Fin 64) :
    flipPixel (flipPixel fb y x) y x = fb := by
  apply framebuffer_ext
  intro y' x'
  simp [pixel_flipPixel]

/-- Flips may be made in either order. -/
theorem flipPixel_comm (fb : Framebuffer) (y y' : Fin 32) (x x' : Fin 64) :
    flipPixel (flipPixel fb y x) y' x' = flipPixel (flipPixel fb y' x') y x := by
  apply framebuffer_ext
  intro a b
  simp only [pixel_flipPixel]
  cases pixel fb a b <;> cases decide (a = y ∧ b = x) <;> cases decide (a = y' ∧ b = x') <;> rfl

/-- The pixels a list of plots leaves do not depend on the collision remembered so far. -/
theorem foldl_plot_fst (l : List (Fin 32 × Fin 64)) (fb : Framebuffer) (c : Bool) :
    (l.foldl plot (fb, c)).1 = l.foldl (fun f p => flipPixel f p.1 p.2) fb := by
  induction l generalizing fb c with
  | nil => rfl
  | cons p l ih => exact ih _ _

end Sys2Proof.Machine
end

