-- ==== Sys2Proof/Laws/Memory.lean ====
section
/-! SUPPORT. The laws of memory: a read after a write, and the canonical form that every write keeps. -/

namespace Sys2Proof.Machine

open Sys2Proof

/-! ## Addresses -/

theorem mask12_toNat (v : Nat) : (mask12 v).toNat = v % 4096 := by simp [mask12]

theorem addrPlus_toNat (a : Addr) (k : Nat) : (addrPlus a k).toNat = (a.toNat + k) % 4096 := by
  simp [addrPlus, mask12_toNat]

@[simp] theorem addrPlus_zero (a : Addr) : addrPlus a 0 = a := by simp [addrPlus, mask12]

/-- Steps along the address space add up, wrapping (R61). -/
theorem addrPlus_addrPlus (a : Addr) (j k : Nat) : addrPlus (addrPlus a j) k = addrPlus a (j + k) := by
  apply BitVec.eq_of_toNat_eq
  simp only [addrPlus_toNat]
  omega

/-- Two offsets below 4096 reach the same address only when they are equal. -/
theorem addrPlus_inj {a : Addr} {j k : Nat} (hj : j < 4096) (hk : k < 4096) : addrPlus a j = addrPlus a k ↔ j = k := by
  constructor
  · intro h
    have h' := congrArg BitVec.toNat h
    have := a.isLt
    simp only [addrPlus_toNat] at h'
    omega
  · rintro rfl; rfl

/-- The fetch's advance and the way back to the instruction's own address. -/
theorem addrPlus_two_back (a : Addr) : addrPlus (addrPlus a 2) 0xFFE = a := by
  apply BitVec.eq_of_toNat_eq
  have := a.isLt
  simp only [addrPlus_toNat]
  omega

/-! ## Cells -/

theorem mem_insertCell {c e : Host.Cell} {m : Memory} : e ∈ insertCell c m ↔ e = c ∨ e ∈ m := by
  induction m with
  | nil => simp [insertCell]
  | cons d m ih =>
    simp only [insertCell]
    split
    · simp
    · simp [ih]; tauto

theorem insertCell_sorted {c : Host.Cell} {m : Memory} (hs : m.Pairwise fun c d => c.1 < d.1)
    (hc : ∀ e ∈ m, e.1 ≠ c.1) : (insertCell c m).Pairwise fun c d => c.1 < d.1 := by
  induction m with
  | nil => simp [insertCell]
  | cons d m ih =>
    obtain ⟨hd, hm⟩ := List.pairwise_cons.mp hs
    simp only [insertCell]
    split <;> rename_i hlt
    · refine List.pairwise_cons.mpr ⟨fun e he => ?_, hs⟩
      rcases List.mem_cons.mp he with rfl | he
      · exact hlt
      · exact lt_trans hlt (hd e he)
    · refine List.pairwise_cons.mpr ⟨fun e he => ?_, ih hm fun e he => hc e (List.mem_cons_of_mem _ he)⟩
      rcases mem_insertCell.mp he with rfl | he
      · have := hc d List.mem_cons_self; omega
      · exact hd e he

theorem find_insertCell_self {c : Host.Cell} {m : Memory} {a : Nat} (ha : c.1 = a) (hc : ∀ e ∈ m, e.1 ≠ a) :
    (insertCell c m).find? (fun e => e.1 == a) = some c := by
  induction m with
  | nil => simp [insertCell, ha]
  | cons d m ih =>
    simp only [insertCell]
    split
    · simp [ha]
    · have hd : d.1 ≠ a := hc d List.mem_cons_self
      simp [hd, ih fun e he => hc e (List.mem_cons_of_mem _ he)]

theorem find_insertCell_ne {c : Host.Cell} {m : Memory} {a : Nat} (ha : c.1 ≠ a) :
    (insertCell c m).find? (fun e => e.1 == a) = m.find? (fun e => e.1 == a) := by
  induction m with
  | nil => simp [insertCell, ha]
  | cons d m ih =>
    simp only [insertCell]
    split
    · simp [ha]
    · simp only [List.find?_cons, ih]

theorem find_filter_ne {m : Memory} {a b : Nat} (h : a ≠ b) :
    (m.filter fun c => c.1 != b).find? (fun e => e.1 == a) = m.find? (fun e => e.1 == a) := by
  induction m with
  | nil => rfl
  | cons d m ih =>
    by_cases hd : d.1 = b
    · have : d.1 ≠ a := fun h' => h (h'.symm.trans hd)
      simp [hd, ih, h.symm]
    · simp [hd, ih, List.find?_cons]

theorem mem_filter_ne {m : Memory} {b : Nat} {e : Host.Cell} (he : e ∈ m.filter fun c => c.1 != b) : e.1 ≠ b := by
  simpa using (List.mem_filter.mp he).2

theorem find_filter_self (m : Memory) (b : Nat) : (m.filter fun c => c.1 != b).find? (fun e => e.1 == b) = none := by
  rw [List.find?_eq_none]
  intro e he
  simpa using mem_filter_ne he

/-! ## Read after write -/

/-- A byte just written is read back. -/
@[simp] theorem memRead_memWrite_self (m : Memory) (a : Addr) (b : Byte) : memRead (memWrite m a b) a = b := by
  unfold memWrite memRead
  by_cases hb : b = unlistedByte a.toNat
  · simp only [if_pos hb, find_filter_self]
    exact hb.symm
  · simp only [if_neg hb, find_insertCell_self (c := (a.toNat, b)) rfl fun e he => mem_filter_ne he]

/-- A write leaves every other byte alone. -/
theorem memRead_memWrite_of_ne (m : Memory) {a a' : Addr} (b : Byte) (h : a' ≠ a) :
    memRead (memWrite m a b) a' = memRead m a' := by
  have h' : a'.toNat ≠ a.toNat := fun e => h (BitVec.eq_of_toNat_eq e)
  unfold memWrite memRead
  by_cases hb : b = unlistedByte a.toNat
  · simp only [if_pos hb, find_filter_ne h']
  · simp only [if_neg hb, find_insertCell_ne (c := (a.toNat, b)) h'.symm, find_filter_ne h']

/-! ## The canonical form -/

/-- A byte write keeps the canonical form. -/
theorem memWrite_wf {m : Memory} (hm : m.wf) (a : Addr) (b : Byte) : (memWrite m a b).wf := by
  obtain ⟨hs, he⟩ := hm
  have hs' := hs.filter fun c : Host.Cell => c.1 != a.toNat
  have he' : ∀ c ∈ m.filter (fun c : Host.Cell => c.1 != a.toNat), c.1 < 4096 ∧ c.2 ≠ unlistedByte c.1 :=
    fun c hc => he c (List.mem_filter.mp hc).1
  unfold memWrite
  simp only
  split <;> rename_i hb
  · exact ⟨hs', he'⟩
  · refine ⟨insertCell_sorted hs' fun e h => mem_filter_ne h, fun c hc => ?_⟩
    rcases mem_insertCell.mp hc with rfl | hc
    · exact ⟨a.isLt, hb⟩
    · exact he' c hc

/-- A block of byte writes keeps the canonical form. -/
theorem memWriteBytes_wf {m : Memory} (hm : m.wf) (a : Addr) (bs : List Byte) : (memWriteBytes m a bs).wf := by
  induction bs generalizing m a with
  | nil => exact hm
  | cons b bs ih => exact ih (memWrite_wf hm a b) _

/-- The memory of the reset state is in its canonical form. -/
theorem reset_mem_wf : State.reset.mem.wf := by decide

/-! ## Blocks -/

@[simp] theorem memReadBytes_length (m : Memory) (a : Addr) (n : Nat) : (memReadBytes m a n).length = n := by
  induction n generalizing a with
  | zero => rfl
  | succ n ih => simp [memReadBytes, ih]

/-- The k-th byte of a block read is the byte at `mask12(a + k)`. -/
theorem memReadBytes_getElem (m : Memory) (a : Addr) (n k : Nat) (h : k < (memReadBytes m a n).length) :
    (memReadBytes m a n)[k] = memRead m (addrPlus a k) := by
  induction n generalizing a k with
  | zero => simp at h
  | succ n ih =>
    cases k with
    | zero => simp [memReadBytes]
    | succ k =>
      simp only [memReadBytes, List.getElem_cons_succ]
      rw [ih, addrPlus_addrPlus, Nat.add_comm 1 k]

/-- A block write leaves every address outside the block alone. -/
theorem memRead_memWriteBytes_outside (m : Memory) (a a' : Addr) (bs : List Byte)
    (h : ∀ k < bs.length, a' ≠ addrPlus a k) : memRead (memWriteBytes m a bs) a' = memRead m a' := by
  induction bs generalizing m a with
  | nil => rfl
  | cons b bs ih =>
    rw [memWriteBytes, ih]
    · exact memRead_memWrite_of_ne m b (by simpa using h 0 (by simp))
    · intro k hk
      rw [addrPlus_addrPlus, Nat.add_comm]
      exact h (k + 1) (by simpa using hk)

/-- A block write of at most 4096 bytes puts the k-th byte at `mask12(a + k)`. -/
theorem memRead_memWriteBytes_inside (m : Memory) (a : Addr) (bs : List Byte) (hl : bs.length ≤ 4096) (k : Nat)
    (hk : k < bs.length) : memRead (memWriteBytes m a bs) (addrPlus a k) = bs[k] := by
  induction bs generalizing m a k with
  | nil => simp at hk
  | cons b bs ih =>
    rw [memWriteBytes]
    simp only [List.length_cons] at hl hk
    cases k with
    | zero =>
      rw [addrPlus_zero, memRead_memWriteBytes_outside]
      · simp
      · intro j hj h
        rw [addrPlus_addrPlus] at h
        have := (addrPlus_inj (a := a) (j := 0) (k := 1 + j) (by omega) (by omega)).mp (by simpa using h)
        omega
    | succ k =>
      have := ih (memWrite m a b) (addrPlus a 1) (by omega) k (by omega)
      rw [addrPlus_addrPlus, Nat.add_comm] at this
      simpa using this

/-- Writing what the addresses read as anyway lists nothing. -/
theorem memWriteBytes_nil (a : Addr) (bs : List Byte)
    (h : ∀ k (hk : k < bs.length), bs[k] = unlistedByte (addrPlus a k).toNat) : memWriteBytes [] a bs = [] := by
  induction bs generalizing a with
  | nil => rfl
  | cons b bs ih =>
    have h0 : b = unlistedByte a.toNat := by
      have := h 0 (by simp)
      rwa [addrPlus_zero] at this
    rw [memWriteBytes, show memWrite [] a b = [] by simp [memWrite, h0]]
    refine ih _ fun k hk => ?_
    rw [addrPlus_addrPlus, Nat.add_comm]
    exact h (k + 1) (by simpa using hk)

/-- In the range of the font an address nothing has written reads as the default font (R64). -/
theorem unlistedByte_font (k : Nat) (hk : k < 80) : unlistedByte (0x050 + k) = defaultFont[k] := by
  unfold unlistedByte
  rw [dif_pos (by omega)]
  congr 1
  omega

end Sys2Proof.Machine
end

