-- ==== Sys2Proof/Laws/State.lean ====
section
/-! SUPPORT. One lemma per field per update of the state: what the field holds after it. -/

namespace Sys2Proof.Machine

open Sys2Proof

/-! ## setReg -/

@[simp] theorem State.setReg_v (s : State) (r : Reg) (b : Byte) : (s.setReg r b).v = s.v.set r.val b := rfl
@[simp] theorem State.setReg_i (s : State) (r : Reg) (b : Byte) : (s.setReg r b).i = s.i := rfl
@[simp] theorem State.setReg_pc (s : State) (r : Reg) (b : Byte) : (s.setReg r b).pc = s.pc := rfl
@[simp] theorem State.setReg_stack (s : State) (r : Reg) (b : Byte) : (s.setReg r b).stack = s.stack := rfl
@[simp] theorem State.setReg_dt (s : State) (r : Reg) (b : Byte) : (s.setReg r b).dt = s.dt := rfl
@[simp] theorem State.setReg_st (s : State) (r : Reg) (b : Byte) : (s.setReg r b).st = s.st := rfl
@[simp] theorem State.setReg_key (s : State) (r : Reg) (b : Byte) : (s.setReg r b).key = s.key := rfl
@[simp] theorem State.setReg_fb (s : State) (r : Reg) (b : Byte) : (s.setReg r b).fb = s.fb := rfl
@[simp] theorem State.setReg_mem (s : State) (r : Reg) (b : Byte) : (s.setReg r b).mem = s.mem := rfl
@[simp] theorem State.setReg_execState (s : State) (r : Reg) (b : Byte) : (s.setReg r b).execState = s.execState := rfl
@[simp] theorem State.setReg_fault (s : State) (r : Reg) (b : Byte) : (s.setReg r b).fault = s.fault := rfl
@[simp] theorem State.setReg_cfg (s : State) (r : Reg) (b : Byte) : (s.setReg r b).cfg = s.cfg := rfl
@[simp] theorem State.setReg_oracle (s : State) (r : Reg) (b : Byte) : (s.setReg r b).oracle = s.oracle := rfl
@[simp] theorem State.setReg_draws (s : State) (r : Reg) (b : Byte) : (s.setReg r b).draws = s.draws := rfl
@[simp] theorem State.setReg_stage (s : State) (r : Reg) (b : Byte) : (s.setReg r b).stage = s.stage := rfl
@[simp] theorem State.setReg_allows (s : State) (r : Reg) (b : Byte) (q : Reg) : (s.setReg r b).allows q = s.allows q := rfl
@[simp] theorem State.setReg_instrAddr (s : State) (r : Reg) (b : Byte) : (s.setReg r b).instrAddr = s.instrAddr := rfl

/-! ## setFlag -/

@[simp] theorem State.setFlag_v (s : State) (f : Bool) : (s.setFlag f).v = s.v.set 15 (if f then 1 else 0) := rfl
@[simp] theorem State.setFlag_i (s : State) (f : Bool) : (s.setFlag f).i = s.i := rfl
@[simp] theorem State.setFlag_pc (s : State) (f : Bool) : (s.setFlag f).pc = s.pc := rfl
@[simp] theorem State.setFlag_stack (s : State) (f : Bool) : (s.setFlag f).stack = s.stack := rfl
@[simp] theorem State.setFlag_dt (s : State) (f : Bool) : (s.setFlag f).dt = s.dt := rfl
@[simp] theorem State.setFlag_st (s : State) (f : Bool) : (s.setFlag f).st = s.st := rfl
@[simp] theorem State.setFlag_key (s : State) (f : Bool) : (s.setFlag f).key = s.key := rfl
@[simp] theorem State.setFlag_fb (s : State) (f : Bool) : (s.setFlag f).fb = s.fb := rfl
@[simp] theorem State.setFlag_mem (s : State) (f : Bool) : (s.setFlag f).mem = s.mem := rfl
@[simp] theorem State.setFlag_execState (s : State) (f : Bool) : (s.setFlag f).execState = s.execState := rfl
@[simp] theorem State.setFlag_fault (s : State) (f : Bool) : (s.setFlag f).fault = s.fault := rfl
@[simp] theorem State.setFlag_cfg (s : State) (f : Bool) : (s.setFlag f).cfg = s.cfg := rfl
@[simp] theorem State.setFlag_oracle (s : State) (f : Bool) : (s.setFlag f).oracle = s.oracle := rfl
@[simp] theorem State.setFlag_draws (s : State) (f : Bool) : (s.setFlag f).draws = s.draws := rfl
@[simp] theorem State.setFlag_stage (s : State) (f : Bool) : (s.setFlag f).stage = s.stage := rfl
@[simp] theorem State.setFlag_allows (s : State) (f : Bool) (q : Reg) : (s.setFlag f).allows q = s.allows q := rfl
@[simp] theorem State.setFlag_instrAddr (s : State) (f : Bool) : (s.setFlag f).instrAddr = s.instrAddr := rfl

/-! ## setI -/

@[simp] theorem State.setI_v (s : State) (a : Addr) : (s.setI a).v = s.v := rfl
@[simp] theorem State.setI_i (s : State) (a : Addr) : (s.setI a).i = a := rfl
@[simp] theorem State.setI_pc (s : State) (a : Addr) : (s.setI a).pc = s.pc := rfl
@[simp] theorem State.setI_stack (s : State) (a : Addr) : (s.setI a).stack = s.stack := rfl
@[simp] theorem State.setI_dt (s : State) (a : Addr) : (s.setI a).dt = s.dt := rfl
@[simp] theorem State.setI_st (s : State) (a : Addr) : (s.setI a).st = s.st := rfl
@[simp] theorem State.setI_key (s : State) (a : Addr) : (s.setI a).key = s.key := rfl
@[simp] theorem State.setI_fb (s : State) (a : Addr) : (s.setI a).fb = s.fb := rfl
@[simp] theorem State.setI_mem (s : State) (a : Addr) : (s.setI a).mem = s.mem := rfl
@[simp] theorem State.setI_execState (s : State) (a : Addr) : (s.setI a).execState = s.execState := rfl
@[simp] theorem State.setI_fault (s : State) (a : Addr) : (s.setI a).fault = s.fault := rfl
@[simp] theorem State.setI_cfg (s : State) (a : Addr) : (s.setI a).cfg = s.cfg := rfl
@[simp] theorem State.setI_oracle (s : State) (a : Addr) : (s.setI a).oracle = s.oracle := rfl
@[simp] theorem State.setI_draws (s : State) (a : Addr) : (s.setI a).draws = s.draws := rfl
@[simp] theorem State.setI_stage (s : State) (a : Addr) : (s.setI a).stage = s.stage := rfl
@[simp] theorem State.setI_allows (s : State) (a : Addr) (q : Reg) : (s.setI a).allows q = s.allows q := rfl
@[simp] theorem State.setI_reg (s : State) (a : Addr) (q : Reg) : (s.setI a).reg q = s.reg q := rfl
@[simp] theorem State.setI_instrAddr (s : State) (a : Addr) : (s.setI a).instrAddr = s.instrAddr := rfl

/-! ## setPc -/

@[simp] theorem State.setPc_v (s : State) (a : Addr) : (s.setPc a).v = s.v := rfl
@[simp] theorem State.setPc_i (s : State) (a : Addr) : (s.setPc a).i = s.i := rfl
@[simp] theorem State.setPc_pc (s : State) (a : Addr) : (s.setPc a).pc = a := rfl
@[simp] theorem State.setPc_stack (s : State) (a : Addr) : (s.setPc a).stack = s.stack := rfl
@[simp] theorem State.setPc_dt (s : State) (a : Addr) : (s.setPc a).dt = s.dt := rfl
@[simp] theorem State.setPc_st (s : State) (a : Addr) : (s.setPc a).st = s.st := rfl
@[simp] theorem State.setPc_key (s : State) (a : Addr) : (s.setPc a).key = s.key := rfl
@[simp] theorem State.setPc_fb (s : State) (a : Addr) : (s.setPc a).fb = s.fb := rfl
@[simp] theorem State.setPc_mem (s : State) (a : Addr) : (s.setPc a).mem = s.mem := rfl
@[simp] theorem State.setPc_execState (s : State) (a : Addr) : (s.setPc a).execState = s.execState := rfl
@[simp] theorem State.setPc_fault (s : State) (a : Addr) : (s.setPc a).fault = s.fault := rfl
@[simp] theorem State.setPc_cfg (s : State) (a : Addr) : (s.setPc a).cfg = s.cfg := rfl
@[simp] theorem State.setPc_oracle (s : State) (a : Addr) : (s.setPc a).oracle = s.oracle := rfl
@[simp] theorem State.setPc_draws (s : State) (a : Addr) : (s.setPc a).draws = s.draws := rfl
@[simp] theorem State.setPc_stage (s : State) (a : Addr) : (s.setPc a).stage = s.stage := rfl
@[simp] theorem State.setPc_allows (s : State) (a : Addr) (q : Reg) : (s.setPc a).allows q = s.allows q := rfl
@[simp] theorem State.setPc_reg (s : State) (a : Addr) (q : Reg) : (s.setPc a).reg q = s.reg q := rfl

/-! ## setDT -/

@[simp] theorem State.setDT_v (s : State) (b : Byte) : (s.setDT b).v = s.v := rfl
@[simp] theorem State.setDT_i (s : State) (b : Byte) : (s.setDT b).i = s.i := rfl
@[simp] theorem State.setDT_pc (s : State) (b : Byte) : (s.setDT b).pc = s.pc := rfl
@[simp] theorem State.setDT_stack (s : State) (b : Byte) : (s.setDT b).stack = s.stack := rfl
@[simp] theorem State.setDT_dt (s : State) (b : Byte) : (s.setDT b).dt = b := rfl
@[simp] theorem State.setDT_st (s : State) (b : Byte) : (s.setDT b).st = s.st := rfl
@[simp] theorem State.setDT_key (s : State) (b : Byte) : (s.setDT b).key = s.key := rfl
@[simp] theorem State.setDT_fb (s : State) (b : Byte) : (s.setDT b).fb = s.fb := rfl
@[simp] theorem State.setDT_mem (s : State) (b : Byte) : (s.setDT b).mem = s.mem := rfl
@[simp] theorem State.setDT_execState (s : State) (b : Byte) : (s.setDT b).execState = s.execState := rfl
@[simp] theorem State.setDT_fault (s : State) (b : Byte) : (s.setDT b).fault = s.fault := rfl
@[simp] theorem State.setDT_cfg (s : State) (b : Byte) : (s.setDT b).cfg = s.cfg := rfl
@[simp] theorem State.setDT_oracle (s : State) (b : Byte) : (s.setDT b).oracle = s.oracle := rfl
@[simp] theorem State.setDT_draws (s : State) (b : Byte) : (s.setDT b).draws = s.draws := rfl
@[simp] theorem State.setDT_stage (s : State) (b : Byte) : (s.setDT b).stage = s.stage := rfl
@[simp] theorem State.setDT_allows (s : State) (b : Byte) (q : Reg) : (s.setDT b).allows q = s.allows q := rfl
@[simp] theorem State.setDT_reg (s : State) (b : Byte) (q : Reg) : (s.setDT b).reg q = s.reg q := rfl
@[simp] theorem State.setDT_instrAddr (s : State) (b : Byte) : (s.setDT b).instrAddr = s.instrAddr := rfl

/-! ## setST -/

@[simp] theorem State.setST_v (s : State) (b : Byte) : (s.setST b).v = s.v := rfl
@[simp] theorem State.setST_i (s : State) (b : Byte) : (s.setST b).i = s.i := rfl
@[simp] theorem State.setST_pc (s : State) (b : Byte) : (s.setST b).pc = s.pc := rfl
@[simp] theorem State.setST_stack (s : State) (b : Byte) : (s.setST b).stack = s.stack := rfl
@[simp] theorem State.setST_dt (s : State) (b : Byte) : (s.setST b).dt = s.dt := rfl
@[simp] theorem State.setST_st (s : State) (b : Byte) : (s.setST b).st = b := rfl
@[simp] theorem State.setST_key (s : State) (b : Byte) : (s.setST b).key = s.key := rfl
@[simp] theorem State.setST_fb (s : State) (b : Byte) : (s.setST b).fb = s.fb := rfl
@[simp] theorem State.setST_mem (s : State) (b : Byte) : (s.setST b).mem = s.mem := rfl
@[simp] theorem State.setST_execState (s : State) (b : Byte) : (s.setST b).execState = s.execState := rfl
@[simp] theorem State.setST_fault (s : State) (b : Byte) : (s.setST b).fault = s.fault := rfl
@[simp] theorem State.setST_cfg (s : State) (b : Byte) : (s.setST b).cfg = s.cfg := rfl
@[simp] theorem State.setST_oracle (s : State) (b : Byte) : (s.setST b).oracle = s.oracle := rfl
@[simp] theorem State.setST_draws (s : State) (b : Byte) : (s.setST b).draws = s.draws := rfl
@[simp] theorem State.setST_stage (s : State) (b : Byte) : (s.setST b).stage = s.stage := rfl
@[simp] theorem State.setST_allows (s : State) (b : Byte) (q : Reg) : (s.setST b).allows q = s.allows q := rfl
@[simp] theorem State.setST_reg (s : State) (b : Byte) (q : Reg) : (s.setST b).reg q = s.reg q := rfl
@[simp] theorem State.setST_instrAddr (s : State) (b : Byte) : (s.setST b).instrAddr = s.instrAddr := rfl

/-! ## setFb -/

@[simp] theorem State.setFb_v (s : State) (fb : Framebuffer) : (s.setFb fb).v = s.v := rfl
@[simp] theorem State.setFb_i (s : State) (fb : Framebuffer) : (s.setFb fb).i = s.i := rfl
@[simp] theorem State.setFb_pc (s : State) (fb : Framebuffer) : (s.setFb fb).pc = s.pc := rfl
@[simp] theorem State.setFb_stack (s : State) (fb : Framebuffer) : (s.setFb fb).stack = s.stack := rfl
@[simp] theorem State.setFb_dt (s : State) (fb : Framebuffer) : (s.setFb fb).dt = s.dt := rfl
@[simp] theorem State.setFb_st (s : State) (fb : Framebuffer) : (s.setFb fb).st = s.st := rfl
@[simp] theorem State.setFb_key (s : State) (fb : Framebuffer) : (s.setFb fb).key = s.key := rfl
@[simp] theorem State.setFb_fb (s : State) (fb : Framebuffer) : (s.setFb fb).fb = fb := rfl
@[simp] theorem State.setFb_mem (s : State) (fb : Framebuffer) : (s.setFb fb).mem = s.mem := rfl
@[simp] theorem State.setFb_execState (s : State) (fb : Framebuffer) : (s.setFb fb).execState = s.execState := rfl
@[simp] theorem State.setFb_fault (s : State) (fb : Framebuffer) : (s.setFb fb).fault = s.fault := rfl
@[simp] theorem State.setFb_cfg (s : State) (fb : Framebuffer) : (s.setFb fb).cfg = s.cfg := rfl
@[simp] theorem State.setFb_oracle (s : State) (fb : Framebuffer) : (s.setFb fb).oracle = s.oracle := rfl
@[simp] theorem State.setFb_draws (s : State) (fb : Framebuffer) : (s.setFb fb).draws = s.draws := rfl
@[simp] theorem State.setFb_stage (s : State) (fb : Framebuffer) : (s.setFb fb).stage = s.stage := rfl
@[simp] theorem State.setFb_allows (s : State) (fb : Framebuffer) (q : Reg) : (s.setFb fb).allows q = s.allows q := rfl
@[simp] theorem State.setFb_reg (s : State) (fb : Framebuffer) (q : Reg) : (s.setFb fb).reg q = s.reg q := rfl
@[simp] theorem State.setFb_instrAddr (s : State) (fb : Framebuffer) : (s.setFb fb).instrAddr = s.instrAddr := rfl

/-! ## setMem -/

@[simp] theorem State.setMem_v (s : State) (m : Memory) : (s.setMem m).v = s.v := rfl
@[simp] theorem State.setMem_i (s : State) (m : Memory) : (s.setMem m).i = s.i := rfl
@[simp] theorem State.setMem_pc (s : State) (m : Memory) : (s.setMem m).pc = s.pc := rfl
@[simp] theorem State.setMem_stack (s : State) (m : Memory) : (s.setMem m).stack = s.stack := rfl
@[simp] theorem State.setMem_dt (s : State) (m : Memory) : (s.setMem m).dt = s.dt := rfl
@[simp] theorem State.setMem_st (s : State) (m : Memory) : (s.setMem m).st = s.st := rfl
@[simp] theorem State.setMem_key (s : State) (m : Memory) : (s.setMem m).key = s.key := rfl
@[simp] theorem State.setMem_fb (s : State) (m : Memory) : (s.setMem m).fb = s.fb := rfl
@[simp] theorem State.setMem_mem (s : State) (m : Memory) : (s.setMem m).mem = m := rfl
@[simp] theorem State.setMem_execState (s : State) (m : Memory) : (s.setMem m).execState = s.execState := rfl
@[simp] theorem State.setMem_fault (s : State) (m : Memory) : (s.setMem m).fault = s.fault := rfl
@[simp] theorem State.setMem_cfg (s : State) (m : Memory) : (s.setMem m).cfg = s.cfg := rfl
@[simp] theorem State.setMem_oracle (s : State) (m : Memory) : (s.setMem m).oracle = s.oracle := rfl
@[simp] theorem State.setMem_draws (s : State) (m : Memory) : (s.setMem m).draws = s.draws := rfl
@[simp] theorem State.setMem_stage (s : State) (m : Memory) : (s.setMem m).stage = s.stage := rfl
@[simp] theorem State.setMem_allows (s : State) (m : Memory) (q : Reg) : (s.setMem m).allows q = s.allows q := rfl
@[simp] theorem State.setMem_reg (s : State) (m : Memory) (q : Reg) : (s.setMem m).reg q = s.reg q := rfl
@[simp] theorem State.setMem_instrAddr (s : State) (m : Memory) : (s.setMem m).instrAddr = s.instrAddr := rfl

/-! ## setStack -/

@[simp] theorem State.setStack_v (s : State) (l : List Addr) : (s.setStack l).v = s.v := rfl
@[simp] theorem State.setStack_i (s : State) (l : List Addr) : (s.setStack l).i = s.i := rfl
@[simp] theorem State.setStack_pc (s : State) (l : List Addr) : (s.setStack l).pc = s.pc := rfl
@[simp] theorem State.setStack_stack (s : State) (l : List Addr) : (s.setStack l).stack = l := rfl
@[simp] theorem State.setStack_dt (s : State) (l : List Addr) : (s.setStack l).dt = s.dt := rfl
@[simp] theorem State.setStack_st (s : State) (l : List Addr) : (s.setStack l).st = s.st := rfl
@[simp] theorem State.setStack_key (s : State) (l : List Addr) : (s.setStack l).key = s.key := rfl
@[simp] theorem State.setStack_fb (s : State) (l : List Addr) : (s.setStack l).fb = s.fb := rfl
@[simp] theorem State.setStack_mem (s : State) (l : List Addr) : (s.setStack l).mem = s.mem := rfl
@[simp] theorem State.setStack_execState (s : State) (l : List Addr) : (s.setStack l).execState = s.execState := rfl
@[simp] theorem State.setStack_fault (s : State) (l : List Addr) : (s.setStack l).fault = s.fault := rfl
@[simp] theorem State.setStack_cfg (s : State) (l : List Addr) : (s.setStack l).cfg = s.cfg := rfl
@[simp] theorem State.setStack_oracle (s : State) (l : List Addr) : (s.setStack l).oracle = s.oracle := rfl
@[simp] theorem State.setStack_draws (s : State) (l : List Addr) : (s.setStack l).draws = s.draws := rfl
@[simp] theorem State.setStack_stage (s : State) (l : List Addr) : (s.setStack l).stage = s.stage := rfl
@[simp] theorem State.setStack_allows (s : State) (l : List Addr) (q : Reg) : (s.setStack l).allows q = s.allows q := rfl
@[simp] theorem State.setStack_reg (s : State) (l : List Addr) (q : Reg) : (s.setStack l).reg q = s.reg q := rfl
@[simp] theorem State.setStack_instrAddr (s : State) (l : List Addr) : (s.setStack l).instrAddr = s.instrAddr := rfl

/-! ## setExec -/

@[simp] theorem State.setExec_v (s : State) (e : ExecState) : (s.setExec e).v = s.v := rfl
@[simp] theorem State.setExec_i (s : State) (e : ExecState) : (s.setExec e).i = s.i := rfl
@[simp] theorem State.setExec_pc (s : State) (e : ExecState) : (s.setExec e).pc = s.pc := rfl
@[simp] theorem State.setExec_stack (s : State) (e : ExecState) : (s.setExec e).stack = s.stack := rfl
@[simp] theorem State.setExec_dt (s : State) (e : ExecState) : (s.setExec e).dt = s.dt := rfl
@[simp] theorem State.setExec_st (s : State) (e : ExecState) : (s.setExec e).st = s.st := rfl
@[simp] theorem State.setExec_key (s : State) (e : ExecState) : (s.setExec e).key = s.key := rfl
@[simp] theorem State.setExec_fb (s : State) (e : ExecState) : (s.setExec e).fb = s.fb := rfl
@[simp] theorem State.setExec_mem (s : State) (e : ExecState) : (s.setExec e).mem = s.mem := rfl
@[simp] theorem State.setExec_execState (s : State) (e : ExecState) : (s.setExec e).execState = e := rfl
@[simp] theorem State.setExec_fault (s : State) (e : ExecState) : (s.setExec e).fault = s.fault := rfl
@[simp] theorem State.setExec_cfg (s : State) (e : ExecState) : (s.setExec e).cfg = s.cfg := rfl
@[simp] theorem State.setExec_oracle (s : State) (e : ExecState) : (s.setExec e).oracle = s.oracle := rfl
@[simp] theorem State.setExec_draws (s : State) (e : ExecState) : (s.setExec e).draws = s.draws := rfl
@[simp] theorem State.setExec_stage (s : State) (e : ExecState) : (s.setExec e).stage = s.stage := rfl
@[simp] theorem State.setExec_allows (s : State) (e : ExecState) (q : Reg) : (s.setExec e).allows q = s.allows q := rfl
@[simp] theorem State.setExec_reg (s : State) (e : ExecState) (q : Reg) : (s.setExec e).reg q = s.reg q := rfl
@[simp] theorem State.setExec_instrAddr (s : State) (e : ExecState) : (s.setExec e).instrAddr = s.instrAddr := rfl

/-! ## countDraw -/

@[simp] theorem State.countDraw_v (s : State) : s.countDraw.v = s.v := rfl
@[simp] theorem State.countDraw_i (s : State) : s.countDraw.i = s.i := rfl
@[simp] theorem State.countDraw_pc (s : State) : s.countDraw.pc = s.pc := rfl
@[simp] theorem State.countDraw_stack (s : State) : s.countDraw.stack = s.stack := rfl
@[simp] theorem State.countDraw_dt (s : State) : s.countDraw.dt = s.dt := rfl
@[simp] theorem State.countDraw_st (s : State) : s.countDraw.st = s.st := rfl
@[simp] theorem State.countDraw_key (s : State) : s.countDraw.key = s.key := rfl
@[simp] theorem State.countDraw_fb (s : State) : s.countDraw.fb = s.fb := rfl
@[simp] theorem State.countDraw_mem (s : State) : s.countDraw.mem = s.mem := rfl
@[simp] theorem State.countDraw_execState (s : State) : s.countDraw.execState = s.execState := rfl
@[simp] theorem State.countDraw_fault (s : State) : s.countDraw.fault = s.fault := rfl
@[simp] theorem State.countDraw_cfg (s : State) : s.countDraw.cfg = s.cfg := rfl
@[simp] theorem State.countDraw_oracle (s : State) : s.countDraw.oracle = s.oracle := rfl
@[simp] theorem State.countDraw_draws (s : State) : s.countDraw.draws = s.draws + 1 := rfl
@[simp] theorem State.countDraw_stage (s : State) : s.countDraw.stage = s.stage := rfl
@[simp] theorem State.countDraw_allows (s : State) (q : Reg) : s.countDraw.allows q = s.allows q := rfl
@[simp] theorem State.countDraw_reg (s : State) (q : Reg) : s.countDraw.reg q = s.reg q := rfl
@[simp] theorem State.countDraw_instrAddr (s : State) : s.countDraw.instrAddr = s.instrAddr := rfl

/-! ## advance -/

@[simp] theorem State.advance_v (s : State) : s.advance.v = s.v := rfl
@[simp] theorem State.advance_i (s : State) : s.advance.i = s.i := rfl
@[simp] theorem State.advance_pc (s : State) : s.advance.pc = addrPlus s.pc 2 := rfl
@[simp] theorem State.advance_stack (s : State) : s.advance.stack = s.stack := rfl
@[simp] theorem State.advance_dt (s : State) : s.advance.dt = s.dt := rfl
@[simp] theorem State.advance_st (s : State) : s.advance.st = s.st := rfl
@[simp] theorem State.advance_key (s : State) : s.advance.key = s.key := rfl
@[simp] theorem State.advance_fb (s : State) : s.advance.fb = s.fb := rfl
@[simp] theorem State.advance_mem (s : State) : s.advance.mem = s.mem := rfl
@[simp] theorem State.advance_execState (s : State) : s.advance.execState = s.execState := rfl
@[simp] theorem State.advance_fault (s : State) : s.advance.fault = s.fault := rfl
@[simp] theorem State.advance_cfg (s : State) : s.advance.cfg = s.cfg := rfl
@[simp] theorem State.advance_oracle (s : State) : s.advance.oracle = s.oracle := rfl
@[simp] theorem State.advance_draws (s : State) : s.advance.draws = s.draws := rfl
@[simp] theorem State.advance_stage (s : State) : s.advance.stage = .started := rfl
@[simp] theorem State.advance_allows (s : State) (q : Reg) : s.advance.allows q = s.allows q := rfl
@[simp] theorem State.advance_reg (s : State) (q : Reg) : s.advance.reg q = s.reg q := rfl

/-! ## loadRegs -/

@[simp] theorem State.loadRegs_v (s : State) (x : Reg) : (s.loadRegs x).v = Vector.ofFn fun k : Fin 16 => if k ≤ x then memRead s.mem (addrPlus s.i k.val) else s.reg k := rfl
@[simp] theorem State.loadRegs_i (s : State) (x : Reg) : (s.loadRegs x).i = s.i := rfl
@[simp] theorem State.loadRegs_pc (s : State) (x : Reg) : (s.loadRegs x).pc = s.pc := rfl
@[simp] theorem State.loadRegs_stack (s : State) (x : Reg) : (s.loadRegs x).stack = s.stack := rfl
@[simp] theorem State.loadRegs_dt (s : State) (x : Reg) : (s.loadRegs x).dt = s.dt := rfl
@[simp] theorem State.loadRegs_st (s : State) (x : Reg) : (s.loadRegs x).st = s.st := rfl
@[simp] theorem State.loadRegs_key (s : State) (x : Reg) : (s.loadRegs x).key = s.key := rfl
@[simp] theorem State.loadRegs_fb (s : State) (x : Reg) : (s.loadRegs x).fb = s.fb := rfl
@[simp] theorem State.loadRegs_mem (s : State) (x : Reg) : (s.loadRegs x).mem = s.mem := rfl
@[simp] theorem State.loadRegs_execState (s : State) (x : Reg) : (s.loadRegs x).execState = s.execState := rfl
@[simp] theorem State.loadRegs_fault (s : State) (x : Reg) : (s.loadRegs x).fault = s.fault := rfl
@[simp] theorem State.loadRegs_cfg (s : State) (x : Reg) : (s.loadRegs x).cfg = s.cfg := rfl
@[simp] theorem State.loadRegs_oracle (s : State) (x : Reg) : (s.loadRegs x).oracle = s.oracle := rfl
@[simp] theorem State.loadRegs_draws (s : State) (x : Reg) : (s.loadRegs x).draws = s.draws := rfl
@[simp] theorem State.loadRegs_stage (s : State) (x : Reg) : (s.loadRegs x).stage = s.stage := rfl
@[simp] theorem State.loadRegs_allows (s : State) (x : Reg) (q : Reg) : (s.loadRegs x).allows q = s.allows q := rfl
@[simp] theorem State.loadRegs_instrAddr (s : State) (x : Reg) : (s.loadRegs x).instrAddr = s.instrAddr := rfl

/-! ## writeFlagged -/

@[simp] theorem State.writeFlagged_v (s : State) (x : Reg) (p : Byte × Bool) : (s.writeFlagged x p).v = (s.v.set x.val p.1).set 15 (if p.2 then 1 else 0) := rfl
@[simp] theorem State.writeFlagged_i (s : State) (x : Reg) (p : Byte × Bool) : (s.writeFlagged x p).i = s.i := rfl
@[simp] theorem State.writeFlagged_pc (s : State) (x : Reg) (p : Byte × Bool) : (s.writeFlagged x p).pc = s.pc := rfl
@[simp] theorem State.writeFlagged_stack (s : State) (x : Reg) (p : Byte × Bool) : (s.writeFlagged x p).stack = s.stack := rfl
@[simp] theorem State.writeFlagged_dt (s : State) (x : Reg) (p : Byte × Bool) : (s.writeFlagged x p).dt = s.dt := rfl
@[simp] theorem State.writeFlagged_st (s : State) (x : Reg) (p : Byte × Bool) : (s.writeFlagged x p).st = s.st := rfl
@[simp] theorem State.writeFlagged_key (s : State) (x : Reg) (p : Byte × Bool) : (s.writeFlagged x p).key = s.key := rfl
@[simp] theorem State.writeFlagged_fb (s : State) (x : Reg) (p : Byte × Bool) : (s.writeFlagged x p).fb = s.fb := rfl
@[simp] theorem State.writeFlagged_mem (s : State) (x : Reg) (p : Byte × Bool) : (s.writeFlagged x p).mem = s.mem := rfl
@[simp] theorem State.writeFlagged_execState (s : State) (x : Reg) (p : Byte × Bool) : (s.writeFlagged x p).execState = s.execState := rfl
@[simp] theorem State.writeFlagged_fault (s : State) (x : Reg) (p : Byte × Bool) : (s.writeFlagged x p).fault = s.fault := rfl
@[simp] theorem State.writeFlagged_cfg (s : State) (x : Reg) (p : Byte × Bool) : (s.writeFlagged x p).cfg = s.cfg := rfl
@[simp] theorem State.writeFlagged_oracle (s : State) (x : Reg) (p : Byte × Bool) : (s.writeFlagged x p).oracle = s.oracle := rfl
@[simp] theorem State.writeFlagged_draws (s : State) (x : Reg) (p : Byte × Bool) : (s.writeFlagged x p).draws = s.draws := rfl
@[simp] theorem State.writeFlagged_stage (s : State) (x : Reg) (p : Byte × Bool) : (s.writeFlagged x p).stage = s.stage := rfl
@[simp] theorem State.writeFlagged_allows (s : State) (x : Reg) (p : Byte × Bool) (q : Reg) : (s.writeFlagged x p).allows q = s.allows q := rfl
@[simp] theorem State.writeFlagged_instrAddr (s : State) (x : Reg) (p : Byte × Bool) : (s.writeFlagged x p).instrAddr = s.instrAddr := rfl

/-! ## skipIf -/

@[simp] theorem State.skipIf_v (s : State) (c : Bool) : (s.skipIf c).v = s.v := by cases c <;> rfl
@[simp] theorem State.skipIf_i (s : State) (c : Bool) : (s.skipIf c).i = s.i := by cases c <;> rfl
@[simp] theorem State.skipIf_pc (s : State) (c : Bool) : (s.skipIf c).pc = if c then addrPlus s.pc 2 else s.pc := by
  cases c <;> rfl
@[simp] theorem State.skipIf_stack (s : State) (c : Bool) : (s.skipIf c).stack = s.stack := by cases c <;> rfl
@[simp] theorem State.skipIf_dt (s : State) (c : Bool) : (s.skipIf c).dt = s.dt := by cases c <;> rfl
@[simp] theorem State.skipIf_st (s : State) (c : Bool) : (s.skipIf c).st = s.st := by cases c <;> rfl
@[simp] theorem State.skipIf_key (s : State) (c : Bool) : (s.skipIf c).key = s.key := by cases c <;> rfl
@[simp] theorem State.skipIf_fb (s : State) (c : Bool) : (s.skipIf c).fb = s.fb := by cases c <;> rfl
@[simp] theorem State.skipIf_mem (s : State) (c : Bool) : (s.skipIf c).mem = s.mem := by cases c <;> rfl
@[simp] theorem State.skipIf_execState (s : State) (c : Bool) : (s.skipIf c).execState = s.execState := by cases c <;> rfl
@[simp] theorem State.skipIf_fault (s : State) (c : Bool) : (s.skipIf c).fault = s.fault := by cases c <;> rfl
@[simp] theorem State.skipIf_cfg (s : State) (c : Bool) : (s.skipIf c).cfg = s.cfg := by cases c <;> rfl
@[simp] theorem State.skipIf_oracle (s : State) (c : Bool) : (s.skipIf c).oracle = s.oracle := by cases c <;> rfl
@[simp] theorem State.skipIf_draws (s : State) (c : Bool) : (s.skipIf c).draws = s.draws := by cases c <;> rfl
@[simp] theorem State.skipIf_stage (s : State) (c : Bool) : (s.skipIf c).stage = s.stage := by cases c <;> rfl
@[simp] theorem State.skipIf_reg (s : State) (c : Bool) (q : Reg) : (s.skipIf c).reg q = s.reg q := by cases c <;> rfl
@[simp] theorem State.skipIf_allows (s : State) (c : Bool) (q : Reg) : (s.skipIf c).allows q = s.allows q := by cases c <;> rfl

/-! ## writeLogic -/

@[simp] theorem State.writeLogic_i (s : State) (x : Reg) (b : Byte) : (s.writeLogic x b).i = s.i := by
  unfold State.writeLogic; split <;> rfl
@[simp] theorem State.writeLogic_pc (s : State) (x : Reg) (b : Byte) : (s.writeLogic x b).pc = s.pc := by
  unfold State.writeLogic; split <;> rfl
@[simp] theorem State.writeLogic_stack (s : State) (x : Reg) (b : Byte) : (s.writeLogic x b).stack = s.stack := by
  unfold State.writeLogic; split <;> rfl
@[simp] theorem State.writeLogic_dt (s : State) (x : Reg) (b : Byte) : (s.writeLogic x b).dt = s.dt := by
  unfold State.writeLogic; split <;> rfl
@[simp] theorem State.writeLogic_st (s : State) (x : Reg) (b : Byte) : (s.writeLogic x b).st = s.st := by
  unfold State.writeLogic; split <;> rfl
@[simp] theorem State.writeLogic_key (s : State) (x : Reg) (b : Byte) : (s.writeLogic x b).key = s.key := by
  unfold State.writeLogic; split <;> rfl
@[simp] theorem State.writeLogic_fb (s : State) (x : Reg) (b : Byte) : (s.writeLogic x b).fb = s.fb := by
  unfold State.writeLogic; split <;> rfl
@[simp] theorem State.writeLogic_mem (s : State) (x : Reg) (b : Byte) : (s.writeLogic x b).mem = s.mem := by
  unfold State.writeLogic; split <;> rfl
@[simp] theorem State.writeLogic_execState (s : State) (x : Reg) (b : Byte) : (s.writeLogic x b).execState = s.execState := by
  unfold State.writeLogic; split <;> rfl
@[simp] theorem State.writeLogic_fault (s : State) (x : Reg) (b : Byte) : (s.writeLogic x b).fault = s.fault := by
  unfold State.writeLogic; split <;> rfl
@[simp] theorem State.writeLogic_cfg (s : State) (x : Reg) (b : Byte) : (s.writeLogic x b).cfg = s.cfg := by
  unfold State.writeLogic; split <;> rfl
@[simp] theorem State.writeLogic_oracle (s : State) (x : Reg) (b : Byte) : (s.writeLogic x b).oracle = s.oracle := by
  unfold State.writeLogic; split <;> rfl
@[simp] theorem State.writeLogic_draws (s : State) (x : Reg) (b : Byte) : (s.writeLogic x b).draws = s.draws := by
  unfold State.writeLogic; split <;> rfl
@[simp] theorem State.writeLogic_stage (s : State) (x : Reg) (b : Byte) : (s.writeLogic x b).stage = s.stage := by
  unfold State.writeLogic; split <;> rfl
@[simp] theorem State.writeLogic_allows (s : State) (x : Reg) (b : Byte) (q : Reg) : (s.writeLogic x b).allows q = s.allows q := by
  unfold State.writeLogic; split <;> rfl

/-! ## Reading a register back -/

/-- Reading after a write: the byte written to that register, and every other register as it was. -/
theorem State.setReg_reg (s : State) (r q : Reg) (b : Byte) :
    (s.setReg r b).reg q = if q = r then b else s.reg q := by
  simp only [State.reg, State.setReg_v, Fin.getElem_fin, Vector.getElem_set]
  by_cases h : q = r
  · simp [h]
  · simp [h, Fin.val_ne_of_ne (Ne.symm h)]

@[simp] theorem State.setReg_reg_self (s : State) (r : Reg) (b : Byte) : (s.setReg r b).reg r = b := by
  simp [State.setReg_reg]

/-- Reading after the flag is written. -/
theorem State.setFlag_reg (s : State) (f : Bool) (q : Reg) :
    (s.setFlag f).reg q = if q = flagReg then (if f then 1 else 0) else s.reg q :=
  State.setReg_reg s flagReg q _

/-- Reading after a result and its flag are written: the flag is written last (R162). -/
theorem State.writeFlagged_reg (s : State) (x q : Reg) (p : Byte × Bool) :
    (s.writeFlagged x p).reg q = if q = flagReg then (if p.2 then 1 else 0) else if q = x then p.1 else s.reg q := by
  rw [State.writeFlagged, State.setFlag_reg, State.setReg_reg]

/-- Reading after a logic operation's result is written (R154 to R156). -/
theorem State.writeLogic_reg (s : State) (x q : Reg) (b : Byte) :
    (s.writeLogic x b).reg q =
      if s.cfg.logicVF = .zero ∧ q = flagReg then 0 else if q = x then b else s.reg q := by
  unfold State.writeLogic
  split <;> rename_i h
  · simp [h, State.setReg_reg]
  · simp [h, State.setFlag_reg, State.setReg_reg]

/-- Reading after the block load of LD Vx,[I] (R195). -/
theorem State.loadRegs_reg (s : State) (x q : Reg) :
    (s.loadRegs x).reg q = if q ≤ x then memRead s.mem (addrPlus s.i q.val) else s.reg q := by
  rw [State.reg, State.loadRegs_v]
  simp

/-! ## Two states that agree -/

/-- Two states are equal when every field is. -/
theorem State.ext_fields {s t : State} (hv : s.v = t.v) (hi : s.i = t.i) (hpc : s.pc = t.pc) (hstack : s.stack = t.stack)
    (hdt : s.dt = t.dt) (hst : s.st = t.st) (hkey : s.key = t.key) (hfb : s.fb = t.fb) (hmem : s.mem = t.mem)
    (he : s.execState = t.execState) (hf : s.fault = t.fault) (hc : s.cfg = t.cfg) (ho : s.oracle = t.oracle)
    (hd : s.draws = t.draws) (hg : s.stage = t.stage) : s = t := by
  cases s; cases t; simp_all

/-- Writing a register twice keeps the last byte. -/
theorem State.setReg_setReg_self (s : State) (r : Reg) (b c : Byte) : (s.setReg r b).setReg r c = s.setReg r c := by
  simp [State.setReg]

end Sys2Proof.Machine
end

