-- ==== Sys2Proof/Laws/Operands.lean ====
section
/-! SUPPORT. What the operand forms and the flag computations give, as numbers. -/

namespace Sys2Proof.Machine

open Sys2Proof

/-! ## The shifts (R159, R161) -/

theorem shiftRightOne_fst_toNat (b : Byte) : (shiftRightOne b).1.toNat = b.toNat / 2 := by
  simp [shiftRightOne, Nat.shiftRight_eq_div_pow]

theorem shiftRightOne_snd (b : Byte) : (shiftRightOne b).2 = decide (b.toNat % 2 = 1) := by
  simp only [shiftRightOne, BitVec.getLsbD, Nat.testBit_zero]

theorem shiftLeftOne_fst_toNat (b : Byte) : (shiftLeftOne b).1.toNat = b.toNat * 2 % 256 := by
  simp [shiftLeftOne, Nat.shiftLeft_eq]

theorem shiftLeftOne_snd (b : Byte) : (shiftLeftOne b).2 = decide (128 ≤ b.toNat) := by
  revert b; decide

/-! ## Keys (R259, R260) -/

theorem lowNibble_val (v : Byte) : (lowNibble v).val = v.toNat % 16 := rfl

/-- With no key pressed there is no lowest one. -/
theorem lowestPressed_none {s : State} : s.lowestPressed = none ↔ ∀ k : Key, s.key[k] = false := by
  simp only [State.lowestPressed, Option.map_eq_none_iff, List.findIdx?_eq_none_iff, id]
  constructor
  · intro h k
    exact h _ (by simp)
  · intro h b hb
    obtain ⟨k, hk, rfl⟩ := List.getElem_of_mem hb
    simpa using h ⟨k, by simpa using hk⟩

/-- The least pressed key is the lowest one. -/
theorem lowestPressed_some {s : State} {k : Key} (hk : s.key[k] = true) (hj : ∀ j : Key, j < k → s.key[j] = false) :
    s.lowestPressed = some (BitVec.ofNat 8 k.val) := by
  have : s.key.toList.findIdx? id = some k.val := by
    rw [List.findIdx?_eq_some_iff_getElem]
    refine ⟨by simp, by simpa using hk, fun j hjk => ?_⟩
    simpa using hj ⟨j, by omega⟩ hjk
  simp [State.lowestPressed, this]

/-! ## The bytes of the block transfers (R193, R194) -/

@[simp] theorem bcdDigits_length (d : Byte) : (bcdDigits d).length = 3 := rfl

@[simp] theorem regsUpTo_length (s : State) (x : Reg) : (s.regsUpTo x).length = x.val + 1 := by
  simp [State.regsUpTo]

theorem regsUpTo_getElem (s : State) (x : Reg) (k : Nat) (h : k < (s.regsUpTo x).length) :
    (s.regsUpTo x)[k] = s.reg ⟨k, by rw [regsUpTo_length] at h; omega⟩ := by
  simp [State.regsUpTo, State.reg]

/-! ## The pixels of a sprite (R222) -/

theorem mem_rowTargets {edge : Option DrawEdge} {px cy : Nat} {b : Byte} {p : Fin 32 × Fin 64} :
    p ∈ rowTargets edge px cy b ↔ ∃ col < 8, b.getMsbD col = true ∧ target edge (px + col) cy = some p := by
  simp [rowTargets]

/-- A pixel is met by a sprite when some 1 bit of some row has it as its target. -/
theorem mem_spriteTargets {edge : Option DrawEdge} {px py : Nat} {bytes : List Byte} {p : Fin 32 × Fin 64} :
    p ∈ spriteTargets edge px py bytes ↔
      ∃ row, ∃ h : row < bytes.length, ∃ col < 8, bytes[row].getMsbD col = true ∧
        target edge (px + col) (py + row) = some p := by
  induction bytes generalizing py with
  | nil => simp [spriteTargets]
  | cons b bs ih =>
    rw [spriteTargets, List.mem_append, mem_rowTargets, ih]
    constructor
    · rintro (⟨col, hc, hb, ht⟩ | ⟨row, hr, col, hc, hb, ht⟩)
      · exact ⟨0, by simp, col, hc, by simpa using hb, by simpa using ht⟩
      · exact ⟨row + 1, by simpa using hr, col, hc, by simpa using hb, by rwa [Nat.add_assoc, Nat.add_comm 1] at ht⟩
    · rintro ⟨row, hr, col, hc, hb, ht⟩
      cases row with
      | zero => exact .inl ⟨col, hc, by simpa using hb, by simpa using ht⟩
      | succ row =>
        exact .inr ⟨row, by simpa using hr, col, hc, by simpa using hb, by rwa [Nat.add_assoc, Nat.add_comm 1]⟩

end Sys2Proof.Machine
end

