-- ==== Sys2Proof/Laws/Ops.lean ====
section
/-! SUPPORT. What each shared operation can do: one lemma that says when it goes on, and one that says how it stops. -/

namespace Sys2Proof.Machine

open Sys2Proof

/-! ## The register-15 check (R22) -/

/-- Under the default policy the register an instruction may not name is 15. -/
theorem State.eq_flagReg_of_not_allows {s : State} {r : Reg} (h : s.allows r = false) : r = flagReg := by
  simp only [State.allows, Bool.or_eq_false_iff] at h
  simpa using h.2

theorem State.allows_of_ne {s : State} {r : Reg} (h : r ≠ flagReg) : s.allows r = true := by
  simp [State.allows, h]

@[simp] theorem checkReg_of_allows {i : Instr} {r : Reg} {s : State} {k : Result} (h : s.allows r = true) :
    checkReg i r s k = k := by simp [checkReg, h]

/-- A register check that fails raises ReservedRegister with the index 15 (R22, R280). -/
theorem checkReg_of_not_allows {i : Instr} {r : Reg} {s : State} {k : Result} (h : s.allows r = false) :
    checkReg i r s k = .fault (.reservedRegister s.instrAddr (encode i) flagReg) := by
  obtain rfl := State.eq_flagReg_of_not_allows h
  simp [checkReg, h, raise]

/-- A register check answers a next state only by passing and going on. -/
theorem checkReg_next {i : Instr} {r : Reg} {s t : State} {k : Result} :
    checkReg i r s k = .next t ↔ s.allows r = true ∧ k = .next t := by
  unfold checkReg raise
  cases s.allows r <;> simp

/-- A register check refuses only where what follows it refuses. -/
theorem checkReg_refused {i : Instr} {r : Reg} {s : State} {k : Result} {q : Refusal} :
    checkReg i r s k = .refused q ↔ s.allows r = true ∧ k = .refused q := by
  unfold checkReg raise
  cases s.allows r <;> simp

theorem checkRegs_next {i : Instr} {x y : Reg} {s t : State} {k : Result} :
    checkRegs i x y s k = .next t ↔ s.allows x = true ∧ s.allows y = true ∧ k = .next t := by
  simp [checkRegs, checkReg_next]

theorem checkRegs_refused {i : Instr} {x y : Reg} {s : State} {k : Result} {q : Refusal} :
    checkRegs i x y s k = .refused q ↔ s.allows x = true ∧ s.allows y = true ∧ k = .refused q := by
  simp [checkRegs, checkReg_refused]

@[simp] theorem checkRegs_of_allows {i : Instr} {x y : Reg} {s : State} {k : Result} (hx : s.allows x = true)
    (hy : s.allows y = true) : checkRegs i x y s k = k := by simp [checkRegs, hx, hy]

/-- A check of two registers that fails raises ReservedRegister with the index 15, whichever of them it was. -/
theorem checkRegs_of_not_allows {i : Instr} {x y : Reg} {s : State} {k : Result}
    (h : (s.allows x && s.allows y) = false) :
    checkRegs i x y s k = .fault (.reservedRegister s.instrAddr (encode i) flagReg) := by
  unfold checkRegs
  cases hx : s.allows x
  · exact checkReg_of_not_allows hx
  · rw [checkReg_of_allows hx, checkReg_of_not_allows (by simpa [hx] using h)]

/-! ## The operand forms -/

/-- The shift source answers a next state only by going on with the register SHIFT_SOURCE names. -/
theorem withShiftSource_next {i : Instr} {x y : Reg} {s t : State} {k : Byte → Result} :
    withShiftSource i x y s k = .next t ↔
      (s.cfg.shiftSource = .vy ∧ s.allows y = true ∧ k (s.reg y) = .next t) ∨
        (s.cfg.shiftSource = .vx ∧ k (s.reg x) = .next t) := by
  unfold withShiftSource
  split <;> rename_i h <;> simp [h, checkReg_next]

/-- The jump offset answers a next state only by going on with the register JUMP_OFFSET_REG names. -/
theorem withJumpOffset_next {i : Instr} {x : Reg} {s t : State} {k : Byte → Result} :
    withJumpOffset i x s k = .next t ↔
      (s.cfg.jumpOffsetReg = .v0 ∧ k (s.reg 0) = .next t) ∨
        (s.cfg.jumpOffsetReg = .vx ∧ s.allows x = true ∧ k (s.reg x) = .next t) := by
  unfold withJumpOffset
  split <;> rename_i h <;> simp [h, checkReg_next]

/-- The key index answers a next state only by going on with the low nibble of a value it takes. -/
theorem withKeyIndex_next {i : Instr} {v : Byte} {s t : State} {k : Key → Result} :
    withKeyIndex i v s k = .next t ↔ s.takesKey v = true ∧ k (lowNibble v) = .next t := by
  unfold withKeyIndex raise
  cases s.takesKey v <;> simp

/-- The font address answers a next state only by going on with some address. -/
theorem withFontAddr_next {i : Instr} {d : Byte} {s t : State} {k : Addr → Result}
    (h : withFontAddr i d s k = .next t) : ∃ a, k a = .next t := by
  unfold withFontAddr raise at h
  split at h
  · exact ⟨_, h⟩
  · split at h
    · cases h
    · exact ⟨_, h⟩
    · exact ⟨_, h⟩

/-- Push answers a next state only by going on with the address added on top (R31). -/
theorem push_next {i : Instr} {a : Addr} {s t : State} {k : State → Result} :
    push i a s k = .next t ↔ s.stack.length < stackDepth ∧ k (s.setStack (s.stack ++ [a])) = .next t := by
  unfold push raise
  split <;> simp_all

/-- Pop answers a next state only by going on with the top taken off (R32). -/
theorem pop_next {i : Instr} {s t : State} {k : Addr → State → Result} :
    pop i s k = .next t ↔ ∃ a, s.stack.getLast? = some a ∧ k a (s.setStack s.stack.dropLast) = .next t := by
  unfold pop raise
  split <;> simp_all

/-- The extended marker answers a next state only by leaving the state as it is (R284). -/
theorem executeExtended_next {op : Opcode} {s t : State} :
    executeExtended op s = .next t ↔ s.cfg.extBehaviour = .noOp ∧ t = s := by
  unfold executeExtended
  split <;> rename_i h <;> simp [h, eq_comm]

/-- The wait cycle never faults: it resolves with the lowest pressed key or changes nothing (R258). -/
theorem resolveKeyWait_next {x : Reg} {s t : State} :
    resolveKeyWait x s = .next t ↔
      (∃ b, s.lowestPressed = some b ∧ t = (s.setReg x b).setExec .running) ∨ (s.lowestPressed = none ∧ t = s) := by
  unfold resolveKeyWait
  split <;> rename_i h <;> simp [h, eq_comm]

/-! ## The fetch -/

/-- While an instruction runs, its own address is 2 before pc (R26, R103). -/
@[simp] theorem State.advance_instrAddr (s : State) : s.advance.instrAddr = s.pc := addrPlus_two_back s.pc

/-- A placed opcode is the one the next fetch reads. -/
@[simp] theorem placeOpcode_fetched (s : State) (op : Opcode) : (placeOpcode s op).fetched = op := by
  unfold State.fetched placeOpcode memReadWord
  have h0 := memRead_memWriteBytes_inside s.mem s.pc [hiByte op, loByte op] (by simp) 0 (by simp)
  have h1 := memRead_memWriteBytes_inside s.mem s.pc [hiByte op, loByte op] (by simp) 1 (by simp)
  simp only [addrPlus_zero, List.getElem_cons_zero, List.getElem_cons_succ] at h0 h1
  simp only [h0, h1, wordOf_bytes]

/-- What one cycle can be (R103): nothing after a fault, an instruction when running, the held key wait when waiting. -/
theorem runCycle_cases (s : State) :
    (s.fault ≠ none ∧ runCycle s = .next s) ∨
      (s.fault = none ∧ s.execState = .running ∧ runCycle s = executeDecoded s.decoded s.advance) ∨
      (∃ x, s.fault = none ∧ s.execState = .waitingForKey x ∧ runCycle s = resolveKeyWait x s) := by
  unfold runCycle
  split <;> rename_i hf
  · simp [hf]
  · split <;> rename_i he <;> simp [hf, he]

end Sys2Proof.Machine
end

