-- ==== Sys2Proof/Laws/PerInstr.lean ====
section
/-! SUPPORT. What holds of every instruction as syntax, one lemma per constructor. -/

namespace Sys2Proof.Laws.TableRow

open Sys2Proof

/-- The match and mask of an instruction's row in spec/opcode_table.json. -/
def tableRow : Instr → Pattern
  | .cls => ⟨0x00E0#16, 0xFFFF#16⟩
  | .ret => ⟨0x00EE#16, 0xFFFF#16⟩
  | .sys _ => ⟨0x0000#16, 0xF000#16⟩
  | .jp _ => ⟨0x1000#16, 0xF000#16⟩
  | .call _ => ⟨0x2000#16, 0xF000#16⟩
  | .seImm _ _ => ⟨0x3000#16, 0xF000#16⟩
  | .sneImm _ _ => ⟨0x4000#16, 0xF000#16⟩
  | .seReg _ _ => ⟨0x5000#16, 0xF00F#16⟩
  | .ldImm _ _ => ⟨0x6000#16, 0xF000#16⟩
  | .addImm _ _ => ⟨0x7000#16, 0xF000#16⟩
  | .ldReg _ _ => ⟨0x8000#16, 0xF00F#16⟩
  | .orReg _ _ => ⟨0x8001#16, 0xF00F#16⟩
  | .andReg _ _ => ⟨0x8002#16, 0xF00F#16⟩
  | .xorReg _ _ => ⟨0x8003#16, 0xF00F#16⟩
  | .addReg _ _ => ⟨0x8004#16, 0xF00F#16⟩
  | .sub _ _ => ⟨0x8005#16, 0xF00F#16⟩
  | .shr _ _ => ⟨0x8006#16, 0xF00F#16⟩
  | .subn _ _ => ⟨0x8007#16, 0xF00F#16⟩
  | .shl _ _ => ⟨0x800E#16, 0xF00F#16⟩
  | .sneReg _ _ => ⟨0x9000#16, 0xF00F#16⟩
  | .ldI _ => ⟨0xA000#16, 0xF000#16⟩
  | .jpV0 _ _ => ⟨0xB000#16, 0xF000#16⟩
  | .rnd _ _ => ⟨0xC000#16, 0xF000#16⟩
  | .drw _ _ _ => ⟨0xD000#16, 0xF000#16⟩
  | .skp _ => ⟨0xE09E#16, 0xF0FF#16⟩
  | .sknp _ => ⟨0xE0A1#16, 0xF0FF#16⟩
  | .ldFromDT _ => ⟨0xF007#16, 0xF0FF#16⟩
  | .ldK _ => ⟨0xF00A#16, 0xF0FF#16⟩
  | .ldDT _ => ⟨0xF015#16, 0xF0FF#16⟩
  | .ldST _ => ⟨0xF018#16, 0xF0FF#16⟩
  | .addI _ => ⟨0xF01E#16, 0xF0FF#16⟩
  | .ldF _ => ⟨0xF029#16, 0xF0FF#16⟩
  | .ldB _ => ⟨0xF033#16, 0xF0FF#16⟩
  | .stRegs _ => ⟨0xF055#16, 0xF0FF#16⟩
  | .ldRegs _ => ⟨0xF065#16, 0xF0FF#16⟩
  | .ext00Cn _ => ⟨0x00C0#16, 0xFFF0#16⟩
  | .ext00Dn _ => ⟨0x00D0#16, 0xFFF0#16⟩
  | .ext00FB => ⟨0x00FB#16, 0xFFFF#16⟩
  | .ext00FC => ⟨0x00FC#16, 0xFFFF#16⟩
  | .ext00FD => ⟨0x00FD#16, 0xFFFF#16⟩
  | .ext00FE => ⟨0x00FE#16, 0xFFFF#16⟩
  | .ext00FF => ⟨0x00FF#16, 0xFFFF#16⟩
  | .extDxy0 _ _ => ⟨0xD000#16, 0xF00F#16⟩
  | .extFx30 _ => ⟨0xF030#16, 0xF0FF#16⟩
  | .extFx75 _ => ⟨0xF075#16, 0xF0FF#16⟩
  | .extFx85 _ => ⟨0xF085#16, 0xF0FF#16⟩

/-- The word of an instruction stands in the instruction's own row of the opcode table. -/
def Statement (i : Instr) : Prop := encode i &&& (tableRow i).mask = (tableRow i).value

theorem cls : Statement (.cls) := by
  rfl

theorem ret : Statement (.ret) := by
  rfl

theorem sys (nnn : Addr) : Statement (.sys nnn) := by
  simp only [Statement, tableRow, encode, and_F000_eq, opT_encNNN]; rfl

theorem jp (nnn : Addr) : Statement (.jp nnn) := by
  simp only [Statement, tableRow, encode, and_F000_eq, opT_encNNN]; rfl

theorem call (nnn : Addr) : Statement (.call nnn) := by
  simp only [Statement, tableRow, encode, and_F000_eq, opT_encNNN]; rfl

theorem seImm (x : Reg) (kk : Byte) : Statement (.seImm x kk) := by
  simp only [Statement, tableRow, encode, and_F000_eq, opT_encXKK]; rfl

theorem sneImm (x : Reg) (kk : Byte) : Statement (.sneImm x kk) := by
  simp only [Statement, tableRow, encode, and_F000_eq, opT_encXKK]; rfl

theorem seReg (x y : Reg) : Statement (.seReg x y) := by
  simp only [Statement, tableRow, encode, and_F00F_eq, opT_encXYN, opN_encXYN]; rfl

theorem ldImm (x : Reg) (kk : Byte) : Statement (.ldImm x kk) := by
  simp only [Statement, tableRow, encode, and_F000_eq, opT_encXKK]; rfl

theorem addImm (x : Reg) (kk : Byte) : Statement (.addImm x kk) := by
  simp only [Statement, tableRow, encode, and_F000_eq, opT_encXKK]; rfl

theorem ldReg (x y : Reg) : Statement (.ldReg x y) := by
  simp only [Statement, tableRow, encode, and_F00F_eq, opT_encXYN, opN_encXYN]; rfl

theorem orReg (x y : Reg) : Statement (.orReg x y) := by
  simp only [Statement, tableRow, encode, and_F00F_eq, opT_encXYN, opN_encXYN]; rfl

theorem andReg (x y : Reg) : Statement (.andReg x y) := by
  simp only [Statement, tableRow, encode, and_F00F_eq, opT_encXYN, opN_encXYN]; rfl

theorem xorReg (x y : Reg) : Statement (.xorReg x y) := by
  simp only [Statement, tableRow, encode, and_F00F_eq, opT_encXYN, opN_encXYN]; rfl

theorem addReg (x y : Reg) : Statement (.addReg x y) := by
  simp only [Statement, tableRow, encode, and_F00F_eq, opT_encXYN, opN_encXYN]; rfl

theorem sub (x y : Reg) : Statement (.sub x y) := by
  simp only [Statement, tableRow, encode, and_F00F_eq, opT_encXYN, opN_encXYN]; rfl

theorem shr (x y : Reg) : Statement (.shr x y) := by
  simp only [Statement, tableRow, encode, and_F00F_eq, opT_encXYN, opN_encXYN]; rfl

theorem subn (x y : Reg) : Statement (.subn x y) := by
  simp only [Statement, tableRow, encode, and_F00F_eq, opT_encXYN, opN_encXYN]; rfl

theorem shl (x y : Reg) : Statement (.shl x y) := by
  simp only [Statement, tableRow, encode, and_F00F_eq, opT_encXYN, opN_encXYN]; rfl

theorem sneReg (x y : Reg) : Statement (.sneReg x y) := by
  simp only [Statement, tableRow, encode, and_F00F_eq, opT_encXYN, opN_encXYN]; rfl

theorem ldI (nnn : Addr) : Statement (.ldI nnn) := by
  simp only [Statement, tableRow, encode, and_F000_eq, opT_encNNN]; rfl

theorem jpV0 (nnn : Addr) (x : Reg) : Statement (.jpV0 nnn x) := by
  simp only [Statement, tableRow, encode, and_F000_eq, opT_encNNN]; rfl

theorem rnd (x : Reg) (kk : Byte) : Statement (.rnd x kk) := by
  simp only [Statement, tableRow, encode, and_F000_eq, opT_encXKK]; rfl

theorem drw (x y : Reg) (n : Nibble) : Statement (.drw x y n) := by
  simp only [Statement, tableRow, encode, and_F000_eq, opT_encXYN]; rfl

theorem skp (x : Reg) : Statement (.skp x) := by
  simp only [Statement, tableRow, encode, and_F0FF_eq, opT_encXKK, opKK_encXKK]; rfl

theorem sknp (x : Reg) : Statement (.sknp x) := by
  simp only [Statement, tableRow, encode, and_F0FF_eq, opT_encXKK, opKK_encXKK]; rfl

theorem ldFromDT (x : Reg) : Statement (.ldFromDT x) := by
  simp only [Statement, tableRow, encode, and_F0FF_eq, opT_encXKK, opKK_encXKK]; rfl

theorem ldK (x : Reg) : Statement (.ldK x) := by
  simp only [Statement, tableRow, encode, and_F0FF_eq, opT_encXKK, opKK_encXKK]; rfl

theorem ldDT (x : Reg) : Statement (.ldDT x) := by
  simp only [Statement, tableRow, encode, and_F0FF_eq, opT_encXKK, opKK_encXKK]; rfl

theorem ldST (x : Reg) : Statement (.ldST x) := by
  simp only [Statement, tableRow, encode, and_F0FF_eq, opT_encXKK, opKK_encXKK]; rfl

theorem addI (x : Reg) : Statement (.addI x) := by
  simp only [Statement, tableRow, encode, and_F0FF_eq, opT_encXKK, opKK_encXKK]; rfl

theorem ldF (x : Reg) : Statement (.ldF x) := by
  simp only [Statement, tableRow, encode, and_F0FF_eq, opT_encXKK, opKK_encXKK]; rfl

theorem ldB (x : Reg) : Statement (.ldB x) := by
  simp only [Statement, tableRow, encode, and_F0FF_eq, opT_encXKK, opKK_encXKK]; rfl

theorem stRegs (x : Reg) : Statement (.stRegs x) := by
  simp only [Statement, tableRow, encode, and_F0FF_eq, opT_encXKK, opKK_encXKK]; rfl

theorem ldRegs (x : Reg) : Statement (.ldRegs x) := by
  simp only [Statement, tableRow, encode, and_F0FF_eq, opT_encXKK, opKK_encXKK]; rfl

theorem ext00Cn (n : Nibble) : Statement (.ext00Cn n) := by
  apply BitVec.eq_of_toNat_eq
  have := n.isLt
  simp only [tableRow, encode, and_FFF0_eq, encXYN_toNat, BitVec.toNat_ofNat]
  omega

theorem ext00Dn (n : Nibble) : Statement (.ext00Dn n) := by
  apply BitVec.eq_of_toNat_eq
  have := n.isLt
  simp only [tableRow, encode, and_FFF0_eq, encXYN_toNat, BitVec.toNat_ofNat]
  omega

theorem ext00FB : Statement (.ext00FB) := by
  rfl

theorem ext00FC : Statement (.ext00FC) := by
  rfl

theorem ext00FD : Statement (.ext00FD) := by
  rfl

theorem ext00FE : Statement (.ext00FE) := by
  rfl

theorem ext00FF : Statement (.ext00FF) := by
  rfl

theorem extDxy0 (x y : Reg) : Statement (.extDxy0 x y) := by
  simp only [Statement, tableRow, encode, and_F00F_eq, opT_encXYN, opN_encXYN]; rfl

theorem extFx30 (x : Reg) : Statement (.extFx30 x) := by
  simp only [Statement, tableRow, encode, and_F0FF_eq, opT_encXKK, opKK_encXKK]; rfl

theorem extFx75 (x : Reg) : Statement (.extFx75 x) := by
  simp only [Statement, tableRow, encode, and_F0FF_eq, opT_encXKK, opKK_encXKK]; rfl

theorem extFx85 (x : Reg) : Statement (.extFx85 x) := by
  simp only [Statement, tableRow, encode, and_F0FF_eq, opT_encXKK, opKK_encXKK]; rfl

end Sys2Proof.Laws.TableRow
end

