-- ==== Sys2Proof/Laws/Step.lean ====
section
/-! SUPPORT. What an instruction and a step can do, said once: later proofs take their cases from here. -/

namespace Sys2Proof.Machine

open Sys2Proof

/-- No instruction writes what belongs to the host: the configuration, the keypad, the fault slot, the oracle and the
stage. -/
theorem exec_keeps_host_fields {i : Instr} {s t : State} (h : exec i s = .next t) :
    t.cfg = s.cfg ∧ t.key = s.key ∧ t.fault = s.fault ∧ t.oracle = s.oracle ∧ t.stage = s.stage := by
  cases i <;>
    simp only [exec, execCls, execRet, execSys, execJp, execCall, execSeImm, execSneImm, execSeReg, execLdImm, execAddImm,
      execLdReg, execOrReg, execAndReg, execXorReg, execAddReg, execSub, execShr, execSubn, execShl, execSneReg, execLdI,
      execJpV0, execRnd, execDrw, execSkp, execSknp, execLdFromDT, execLdK, execLdDT, execLdST, execAddI, execLdF, execLdB,
      execStRegs, execLdRegs, execExt00Cn, execExt00Dn, execExt00FB, execExt00FC, execExt00FD, execExt00FE, execExt00FF,
      execExtDxy0, execExtFx30, execExtFx75, execExtFx85, checkReg_next, checkRegs_next, withShiftSource_next,
      withJumpOffset_next, withKeyIndex_next, push_next, pop_next, executeExtended_next, Host.Outcome.next.injEq] at h
  case ldF => obtain ⟨_, h⟩ := h; obtain ⟨a, h⟩ := withFontAddr_next h; cases h; simp
  case ldK => obtain ⟨_, h⟩ := h; split at h <;> (cases h; simp)
  case shr => obtain ⟨_, ⟨_, _, rfl⟩ | ⟨_, rfl⟩⟩ := h <;> simp
  case shl => obtain ⟨_, ⟨_, _, rfl⟩ | ⟨_, rfl⟩⟩ := h <;> simp
  case jpV0 => obtain ⟨_, rfl⟩ | ⟨_, _, rfl⟩ := h <;> simp
  all_goals (try (obtain ⟨_, h⟩ := h))
  all_goals (try (obtain ⟨_, h⟩ := h))
  all_goals first | (subst h; simp) | simp

/-- What a next state of a step can be: the state itself (after a fault, or still waiting), an instruction's result, the
advance over an extended opcode, or the end of a key wait. -/
theorem step_next_cases {s t : State} (h : step s = .next t) :
    t = s ∨
      (∃ i, s.fault = none ∧ s.execState = .running ∧ s.decoded = .instr i ∧ exec i s.advance = .next t) ∨
      (∃ op, s.fault = none ∧ s.execState = .running ∧ s.decoded = .extended op ∧ t = s.advance) ∨
      (∃ x b, s.fault = none ∧ s.execState = .waitingForKey x ∧ s.lowestPressed = some b ∧
        t = (s.setReg x b).setExec .running) := by
  rcases runCycle_cases s with ⟨_, h'⟩ | ⟨hf, he, h'⟩ | ⟨x, hf, he, h'⟩ <;> rw [step, h'] at h
  · cases h; exact .inl rfl
  · unfold executeDecoded at h
    split at h
    · rename_i i hd; exact .inr (.inl ⟨i, hf, he, hd, h⟩)
    · rename_i op hd; exact .inr (.inr (.inl ⟨op, hf, he, hd, (executeExtended_next.mp h).2⟩))
    · cases h
  · rcases resolveKeyWait_next.mp h with ⟨b, hb, h⟩ | ⟨_, h⟩
    · exact .inr (.inr (.inr ⟨x, b, hf, he, hb, h⟩))
    · exact .inl h

/-- A step faults only in executing what it decoded. -/
theorem step_fault_cases {s : State} {r : Fault} (h : step s = .fault r) :
    s.fault = none ∧ s.execState = .running ∧ executeDecoded s.decoded s.advance = .fault r := by
  rcases runCycle_cases s with ⟨_, h'⟩ | ⟨hf, he, h'⟩ | ⟨x, hf, he, h'⟩ <;> rw [step, h'] at h
  · cases h
  · exact ⟨hf, he, h⟩
  · unfold resolveKeyWait at h
    split at h <;> cases h

end Sys2Proof.Machine
end

