-- ==== Sys2Proof/Tests/Slice0.lean ====
section
/-! SUPPORT. Small tests: expected results are those of spec/95_test_vectors.md and of the rules' own examples (named at each
test), and for each statement with hypotheses a state that meets them. -/

namespace Sys2Proof.Tests

open Sys2Proof Sys2Proof.Machine Sys2Proof.Safety

/-! ## Helpers -/

/-- The reset state with registers, an index and a pc of one's choice. -/
def base (regs : List (Reg × Byte)) (i : Addr) (pc : Addr) : State :=
  (regs.foldl (fun s p => s.setReg p.1 p.2) (State.reset.setI i)).setPc pc

/-- The reset state with registers of one's choice, at 0x200. -/
def withRegs (regs : List (Reg × Byte)) : State := base regs 0x300 0x200

/-- The same machine with other configuration. -/
def State.configured (s : State) (f : Config → Config) : State := { s with cfg := f s.cfg }

/-- What one step of the opcode, placed at pc, leaves in view. -/
def after {α : Type} (op : Opcode) (s : State) (view : State → α) : Option α :=
  match step (placeOpcode s op) with
  | .next t => some (view t)
  | .fault _ => none
  | .refused _ => none

/-- The fault of one step of the opcode placed at pc. -/
def faultOf (op : Opcode) (s : State) : Option Fault :=
  match step (placeOpcode s op) with
  | .next _ => none
  | .fault r => some r
  | .refused _ => none

/-- A key of the reset state pressed. -/
def pressing (keys : List Key) (s : State) : State := keys.foldl (fun t k => setKey k true t) s

/-- VF_POLICY = Permit. -/
def permit (s : State) : State := State.configured s fun c => { c with vfPolicy := .permit }

/-! ## Well-formedness: an ill-formed term for each check -/

theorem test_wf_refuses_sys_of_cls : Instr.wf (.sys 0x0E0) = false := by decide
theorem test_wf_refuses_sys_of_ret : Instr.wf (.sys 0x0EE) = false := by decide
theorem test_wf_refuses_sys_of_scroll_down : Instr.wf (.sys 0x0C5) = false := by decide
theorem test_wf_refuses_sys_of_scroll_up : Instr.wf (.sys 0x0D3) = false := by decide
theorem test_wf_refuses_sys_of_markers :
    [0x0FB, 0x0FC, 0x0FD, 0x0FE, 0x0FF].all (fun a => !Instr.wf (.sys a)) = true := by decide
theorem test_wf_refuses_jpV0_of_other_register : Instr.wf (.jpV0 0x123 2) = false := by decide
theorem test_wf_refuses_drw_of_height_zero : Instr.wf (.drw 1 2 0) = false := by decide
theorem test_wf_accepts : [Instr.sys 0x0E1, .sys 0x0FA, .jpV0 0x123 1, .drw 1 2 1].all Instr.wf = true := by decide

/-! ## Decoding: a word of each row, written out from the row's pattern (30_encoding.md R93, R97; 95 §2.1) -/

theorem test_decode_control :
    decodeTableWord 16 0x00E0 = some .cls ∧ decodeTableWord 16 0x00EE = some .ret ∧
    decodeTableWord 16 0x0345 = some (.sys 0x345) ∧ decodeTableWord 16 0x1234 = some (.jp 0x234) ∧
    decodeTableWord 16 0x2400 = some (.call 0x400) ∧ decodeTableWord 16 0x3310 = some (.seImm 3 0x10) ∧
    decodeTableWord 16 0x4310 = some (.sneImm 3 0x10) ∧ decodeTableWord 16 0x5120 = some (.seReg 1 2) ∧
    decodeTableWord 16 0x9AB0 = some (.sneReg 0xA 0xB) ∧ decodeTableWord 16 0xB123 = some (.jpV0 0x123 1) := by decide

theorem test_decode_alu :
    decodeTableWord 16 0x600A = some (.ldImm 0 0x0A) ∧ decodeTableWord 16 0x7220 = some (.addImm 2 0x20) ∧
    decodeTableWord 16 0x8120 = some (.ldReg 1 2) ∧ decodeTableWord 16 0x8121 = some (.orReg 1 2) ∧
    decodeTableWord 16 0x8122 = some (.andReg 1 2) ∧ decodeTableWord 16 0x8123 = some (.xorReg 1 2) ∧
    decodeTableWord 16 0x8124 = some (.addReg 1 2) ∧ decodeTableWord 16 0x8125 = some (.sub 1 2) ∧
    decodeTableWord 16 0x8126 = some (.shr 1 2) ∧ decodeTableWord 16 0x8127 = some (.subn 1 2) ∧
    decodeTableWord 16 0x812E = some (.shl 1 2) ∧ decodeTableWord 16 0xC30F = some (.rnd 3 0x0F) := by decide

theorem test_decode_index_display :
    decodeTableWord 16 0xA2F0 = some (.ldI 0x2F0) ∧ decodeTableWord 16 0xF21E = some (.addI 2) ∧
    decodeTableWord 16 0xF429 = some (.ldF 4) ∧ decodeTableWord 16 0xF533 = some (.ldB 5) ∧
    decodeTableWord 16 0xF255 = some (.stRegs 2) ∧ decodeTableWord 16 0xF165 = some (.ldRegs 1) ∧
    decodeTableWord 16 0xD121 = some (.drw 1 2 1) := by decide

theorem test_decode_timers_keys :
    decodeTableWord 16 0xE19E = some (.skp 1) ∧ decodeTableWord 16 0xE1A1 = some (.sknp 1) ∧
    decodeTableWord 16 0xF307 = some (.ldFromDT 3) ∧ decodeTableWord 16 0xF20A = some (.ldK 2) ∧
    decodeTableWord 16 0xF315 = some (.ldDT 3) ∧ decodeTableWord 16 0xF318 = some (.ldST 3) := by decide

theorem test_decode_markers :
    decodeTableWord 16 0x00C5 = some (.ext00Cn 5) ∧ decodeTableWord 16 0x00D3 = some (.ext00Dn 3) ∧
    decodeTableWord 16 0x00FB = some .ext00FB ∧ decodeTableWord 16 0x00FC = some .ext00FC ∧
    decodeTableWord 16 0x00FD = some .ext00FD ∧ decodeTableWord 16 0x00FE = some .ext00FE ∧
    decodeTableWord 16 0x00FF = some .ext00FF ∧ decodeTableWord 16 0xD120 = some (.extDxy0 1 2) ∧
    decodeTableWord 16 0xF030 = some (.extFx30 0) ∧ decodeTableWord 16 0xF175 = some (.extFx75 1) ∧
    decodeTableWord 16 0xF285 = some (.extFx85 2) := by decide

theorem test_decode_illegal :
    [0x5121, 0x8008, 0x800F, 0x9AB1, 0xE1A2, 0xF000, 0xF0FF].all (fun w => decodeTableWord 16 w == none) = true := by decide

/-- With Dxy0 taken out of EXTENDED_SET it is a DRW of height 0 (95 §2.5); a host's own pattern marks any opcode. -/
theorem test_decode_other_extended_sets :
    decode [] 0xD010#16 = .instr (.drw 0 1 0) ∧ decode [] 0x00FB#16 = .instr (.sys 0x0FB) ∧
    decode [] 0xF030#16 = .invalid 0xF030#16 ∧ decode [⟨0x1234#16, 0xFFFF#16⟩] 0x1234#16 = .extended 0x1234#16 := by decide

theorem test_encode_words :
    encode (.addReg 0 1) = 0x8014#16 ∧ encode (.ldImm 0 0x0A) = 0x600A#16 ∧ encode (.jpV0 0x123 1) = 0xB123#16 ∧
    encode (.ext00Dn 3) = 0x00D3#16 ∧ encode (.drw 0xD 0xE 5) = 0xDDE5#16 ∧ encode (.ldK 2) = 0xF20A#16 := by decide

/-! ## Reset and construction -/

/-- The reset state is the construction with the default configuration and zero launch parameters. -/
theorem test_reset_is_construction : State.reset = State.construct (defaultConfig none) zeroLaunch := by
  have hm : loadFont [] defaultFont = [] := memWriteBytes_nil _ _ fun k hk => by
    have hk : k < 80 := by simpa using hk
    have ha : (addrPlus (mask12 fontBase) k).toNat = 0x050 + k := by
      rw [addrPlus_toNat, mask12_toNat, fontBase]; omega
    rw [ha, unlistedByte_font k hk]
    simp
  unfold State.construct
  rw [show zeroLaunch.mem = [] from rfl, show (defaultConfig none).font = defaultFont from rfl, hm]
  rfl
theorem test_reset_pc : State.reset.pc = 0x200#12 := by decide
theorem test_reset_font : memRead State.reset.mem 0x082#12 = 0xF0#8 ∧ memRead State.reset.mem 0x09F#12 = 0x80#8 ∧
    memRead State.reset.mem 0x0A0#12 = 0#8 := by decide

/-! ## Memory -/

theorem test_mem_write_default_unlists : memWrite (memWrite [] 0x300#12 5#8) 0x300#12 0#8 = [] := by decide
theorem test_mem_write_sorted : memWriteBytes [] 0xFFF#12 [1#8, 2#8] = [(0, 2#8), (4095, 1#8)] := by decide

/-! ## Control transfer (95 §2.2) -/

theorem test_sys : after 0x0345 (withRegs []) (fun t => (t.pc, t.stack)) = some (0x345, []) := by decide
theorem test_jp : after 0x1234 (withRegs []) (·.pc) = some 0x234 := by decide
theorem test_jp_wrapped_fetch : (match step { State.reset with pc := 0xFFF, mem := [(0, 0x34), (4095, 0x12)] } with
    | .next t => some t.pc | .fault _ => none | .refused _ => none) = some 0x234#12 := by decide
theorem test_call : after 0x2400 (withRegs []) (fun t => (t.pc, t.stack)) = some (0x400, [0x202]) := by decide
theorem test_call_overflow : faultOf 0x2400 ((withRegs []).setStack (List.replicate 16 0x300#12)) =
    some (.stackOverflow 0x200 0x2400 0x202) := by decide
theorem test_ret : after 0x00EE ((withRegs []).setStack [0x111, 0x202]) (fun t => (t.pc, t.stack)) =
    some (0x202, [0x111]) := by decide
theorem test_ret_underflow : faultOf 0x00EE (withRegs []) = some (.stackUnderflow 0x200 0x00EE) := by decide
theorem test_seImm_wraps : after 0x3000 (base [] 0 0xFFE) (·.pc) = some 0x002 := by decide
theorem test_seImm_not_taken : after 0x3310 (withRegs [(3, 0x11)]) (·.pc) = some 0x202 := by decide
theorem test_sneImm : after 0x4310 (withRegs [(3, 0x10)]) (·.pc) = some 0x202 ∧
    after 0x4310 (withRegs []) (·.pc) = some 0x204 := by decide
theorem test_seReg : after 0x5120 (withRegs [(1, 7), (2, 7)]) (·.pc) = some 0x204 ∧
    after 0x5120 (withRegs [(1, 7), (2, 8)]) (·.pc) = some 0x202 := by decide
theorem test_sneReg : after 0x9120 (withRegs [(1, 7), (2, 8)]) (·.pc) = some 0x204 ∧
    after 0x9110 (withRegs [(1, 7)]) (·.pc) = some 0x202 := by decide
theorem test_jpV0 : after 0xB123 (withRegs [(0, 1), (1, 0x50)]) (·.pc) = some 0x124 ∧
    after 0xBFFF (withRegs [(0, 0xFF)]) (·.pc) = some 0x0FE := by decide
theorem test_jpV0_vx :
    after 0xB200 (State.configured (withRegs [(2, 0x10)]) fun c => { c with jumpOffsetReg := .vx }) (·.pc) = some 0x210 ∧
    faultOf 0xBF00 (State.configured (withRegs []) fun c => { c with jumpOffsetReg := .vx }) =
      some (.reservedRegister 0x200 0xBF00 15) := by decide

/-! ## Loads and arithmetic (95 §2.3) -/

theorem test_ldImm : after 0x600A (withRegs []) (·.reg 0) = some 0x0A := by decide
theorem test_ldImm_vf : faultOf 0x6F01 (withRegs []) = some (.reservedRegister 0x200 0x6F01 15) := by decide
theorem test_addImm : after 0x7220 (withRegs [(2, 0xF0), (15, 1)]) (fun t => (t.reg 2, t.reg 15)) = some (0x10, 1) := by decide
theorem test_ldReg : after 0x8010 (withRegs [(1, 0x33)]) (·.reg 0) = some 0x33 := by decide
theorem test_or : after 0x8011 (withRegs [(0, 0x0C), (1, 0x0A), (15, 1)]) (fun t => (t.reg 0, t.reg 15)) =
    some (0x0E, 1) := by decide
theorem test_or_logic_zero :
    after 0x8011 (State.configured (withRegs [(0, 0x0C), (1, 0x0A), (15, 1)]) fun c => { c with logicVF := .zero })
      (fun t => (t.reg 0, t.reg 15)) = some (0x0E, 0) := by decide
theorem test_and : after 0x8012 (withRegs [(0, 0x0C), (1, 0x0A)]) (·.reg 0) = some 0x08 := by decide
theorem test_xor : after 0x8013 (withRegs [(0, 0x0C), (1, 0x0A)]) (·.reg 0) = some 0x06 := by decide
theorem test_addReg_carry : after 0x8014 (withRegs [(0, 0xFF), (1, 1)]) (fun t => (t.reg 0, t.reg 15)) = some (0, 1) := by decide
theorem test_addReg_into_vf : after 0x8F14 (permit (withRegs [(15, 0xFF), (1, 1)])) (·.reg 15) = some 1 := by decide
theorem test_sub_equal : after 0x8015 (withRegs [(0, 5), (1, 5)]) (fun t => (t.reg 0, t.reg 15)) = some (0, 1) := by decide
theorem test_sub_from_vf : after 0x80F5 (permit (withRegs [(0, 3), (15, 5)])) (fun t => (t.reg 0, t.reg 15)) =
    some (0xFE, 0) := by decide
theorem test_shr : after 0x8016 (withRegs [(0, 4), (1, 5)]) (fun t => (t.reg 0, t.reg 15, t.reg 1)) = some (2, 1, 5) := by decide
theorem test_shr_vx_leaves_y_unchecked :
    after 0x80F6 (State.configured (withRegs [(0, 1)]) fun c => { c with shiftSource := .vx })
      (fun t => (t.reg 0, t.reg 15)) = some (0, 1) := by decide
theorem test_subn : after 0x8017 (withRegs [(0, 5), (1, 3)]) (fun t => (t.reg 0, t.reg 15)) = some (0xFE, 0) := by decide
theorem test_shl : after 0x801E (withRegs [(0, 0x40), (1, 0x81)]) (fun t => (t.reg 0, t.reg 15)) = some (2, 1) := by decide
theorem test_rnd_masked_away : after 0xC300 (withRegs [(3, 7)]) (fun t => (t.reg 3, t.draws)) = some (0, 1) := by
  have h : ∀ b : Byte, b &&& 0 = 0 := fun b => by simp
  show some (Config.rnd 0 0 &&& 0, 1) = _
  rw [h]
theorem test_decode_before_register : faultOf 0x8F08 (withRegs []) = some (.decodeFailure 0x200 0x8F08) := by decide

/-! ## Index and memory (95 §2.4) -/

theorem test_ldI : after 0xA2F0 (withRegs []) (·.i) = some 0x2F0 := by decide
theorem test_addI_wraps : after 0xF11E (base [(1, 1)] 0xFFF 0x200) (fun t => (t.i, t.reg 15)) = some (0, 0) := by decide
theorem test_ldF : after 0xF429 (withRegs [(4, 0x0A)]) (·.i) = some 0x082 ∧
    faultOf 0xF429 (withRegs [(4, 0x10)]) = some (.fontDigitOutOfRange 0x200 0xF429 0x10) := by decide
theorem test_ldF_policies :
    after 0xF429 (State.configured (withRegs [(4, 0xFF)]) fun c => { c with fontDigitPolicy := .unmasked }) (·.i) =
      some 0x54B ∧
    after 0xF429 (State.configured (withRegs [(4, 0x1A)]) fun c => { c with fontDigitPolicy := .lowNibble }) (·.i) =
      some 0x082 := by decide
theorem test_ldB : after 0xF533 (withRegs [(5, 0x9C)]) (fun t => (memReadBytes t.mem 0x300 3, t.i)) =
    some ([1, 5, 6], 0x300) := by decide
theorem test_ldB_wraps : after 0xF333 (base [(3, 0x7B)] 0xFFE 0x200) (fun t => memReadBytes t.mem 0xFFE 3) =
    some [1, 2, 3] := by decide
theorem test_stRegs : after 0xF255 (base [(0, 0x11), (1, 0x22), (2, 0x33), (3, 0x44)] 0x400 0x200)
    (fun t => (memReadBytes t.mem 0x400 4, t.i)) = some ([0x11, 0x22, 0x33, 0], 0x403) := by decide
theorem test_stRegs_wraps : after 0xF155 (base [(0, 0xAA), (1, 0xBB)] 0xFFF 0x200)
    (fun t => (memRead t.mem 0xFFF, memRead t.mem 0x000, t.i)) = some (0xAA, 0xBB, 1) := by decide
theorem test_ldRegs : after 0xF265 ((base [(3, 0x44)] 0x400 0x200).setMem [(0x400, 0x11), (0x401, 0x22), (0x402, 0x33)])
    (fun t => (t.reg 0, t.reg 1, t.reg 2, t.reg 3, t.i)) = some (0x11, 0x22, 0x33, 0x44, 0x403) := by decide
theorem test_ldRegs_vf : faultOf 0xFF65 (withRegs []) = some (.reservedRegister 0x200 0xFF65 15) ∧
    after 0xFF65 (permit ((base [] 0x600 0x200).setMem [(0x60F, 0x77)])) (fun t => (t.reg 15, t.i)) =
      some (0x77, 0x610) := by decide

/-! ## Display (95 §2.5) -/

/-- The reset machine with an edge policy and the index on a glyph. -/
def drawing (edge : DrawEdge) (x y : Byte) (i : Addr) : State :=
  State.configured (base [(0, x), (1, y)] i 0x200) fun c => { c with drawEdge := some edge }

theorem test_cls : after 0x00E0 ((withRegs []).setFb (Vector.replicate 32 5)) (·.fb) = some (Vector.replicate 32 0) := by decide
theorem test_drw_glyph : after 0xD015 (base [] 0x050 0x200) (fun t => (t.fb.toList.take 6, t.reg 15)) =
    some ([0xF000000000000000, 0x9000000000000000, 0x9000000000000000, 0x9000000000000000, 0xF000000000000000, 0], 0) := by
  decide
theorem test_drw_wrap : after 0xD015 (drawing .wrap 62 30 0x050) (fun t => (t.fb[30], t.fb[31], t.fb[0], t.fb[1], t.fb[2])) =
    some (0xC000000000000003, 0x4000000000000002, 0x4000000000000002, 0x4000000000000002, 0xC000000000000003) := by decide
theorem test_drw_clip : after 0xD015 (drawing .clip 62 30 0x050) (fun t => (t.fb[30], t.fb[31], t.fb[0])) =
    some (0x3, 0x2, 0) := by decide
theorem test_drw_clip_start_not_reduced : after 0xD015 (drawing .clip 70 0 0x055) (fun t => (t.fb, t.reg 15)) =
    some (Vector.replicate 32 0, 0) := by decide
theorem test_drw_collision : after 0xD011 ((base [] 0x050 0x200).setFb ((Vector.replicate 32 0).set 0 0x8000000000000000))
    (fun t => (t.fb[0], t.reg 15)) = some (0x7000000000000000, 1) := by decide

/-! ## Timers and keys (95 §2.6) -/

theorem test_ldFromDT : after 0xF307 ((withRegs []).setDT 0x3C) (·.reg 3) = some 0x3C := by decide
theorem test_ldDT : after 0xF315 ((withRegs [(3, 0x3C)]).setDT 1) (·.dt) = some 0x3C := by decide
theorem test_ldST : after 0xF318 (withRegs [(3, 2)]) (fun t => (t.st, isSoundActive t)) = some (2, true) := by decide
theorem test_skp : after 0xE19E (pressing [3] (withRegs [(1, 3)])) (·.pc) = some 0x204 ∧
    faultOf 0xE19E (withRegs [(1, 0x10)]) = some (.keyIndexOutOfRange 0x200 0xE19E 0x10) := by decide
theorem test_skp_low_nibble :
    after 0xE19E (State.configured (pressing [3] (withRegs [(1, 0x13)])) fun c => { c with keyIndexPolicy := .lowNibble })
      (·.pc) = some 0x204 := by decide
theorem test_sknp : after 0xE1A1 (withRegs [(1, 3)]) (·.pc) = some 0x204 ∧
    after 0xE1A1 (pressing [3] (withRegs [(1, 3)])) (·.pc) = some 0x202 := by decide
theorem test_ldK_waits : after 0xF20A (withRegs [(2, 9)]) (fun t => (t.pc, t.execState, t.reg 2)) =
    some (0x202, .waitingForKey 2, 9) := by decide
theorem test_ldK_pressed : after 0xF20A (pressing [9, 4] (withRegs [])) (fun t => (t.reg 2, t.execState)) =
    some (4, .running) := by decide
theorem test_wait_resolves : (match step ((pressing [0xF, 0xC] (withRegs [])).setExec (.waitingForKey 2)) with
    | .next t => some (t.reg 2, t.execState, t.pc) | .fault _ => none | .refused _ => none) =
    some (0x0C, .running, 0x200) := by decide
theorem test_tick : (tick ((withRegs []).setDT 5)).dt = 4 ∧ (tick ((withRegs []).setDT 0)).dt = 0 := by decide

/-! ## Markers, faults and the host (95 §2.7) -/

/-- The words of the eleven markers. -/
def markerWords : List Opcode :=
  [0x00C5, 0x00D3, 0x00FB, 0x00FC, 0x00FD, 0x00FE, 0x00FF, 0xD120, 0xF030, 0xF175, 0xF285]

theorem test_markers_fault :
    markerWords.all (fun w => faultOf w (withRegs []) == some (.unimplementedExtended 0x200 w)) = true := by decide
theorem test_markers_noOp :
    markerWords.all (fun w =>
      after w (State.configured (withRegs []) fun c => { c with extBehaviour := .noOp }) (·.pc) == some 0x202) = true := by decide
theorem test_illegal : faultOf 0x5121 (withRegs []) = some (.decodeFailure 0x200 0x5121) := by decide
theorem test_register_before_digit : faultOf 0xFF29 (withRegs [(15, 0x20)]) = some (.reservedRegister 0x200 0xFF29 15) := by
  decide
theorem test_fault_codes : [Fault.stackOverflow 0 0 0, .stackUnderflow 0 0, .decodeFailure 0 0, .unimplementedExtended 0 0,
    .reservedRegister 0 0 15, .keyIndexOutOfRange 0 0 0, .fontDigitOutOfRange 0 0 0, .programTooLarge 0].map Fault.code =
    [1, 2, 3, 4, 5, 6, 7, 8] := by decide
theorem test_loadProgram_odd : (match transact (.loadProgram [0x12, 0x00, 0xAB]) State.reset with
    | .next t => memReadBytes t.mem 0x200 4 | .fault _ => [] | .refused _ => []) = [0x12, 0x00, 0xAB, 0x00] := by decide
theorem test_loadProgram_twice : (match transactAll [.loadProgram [0x12], .loadProgram [0x13]] State.reset with
    | .next _ => none | .fault _ => none | .refused q => some q) = some .loadProgramOutOfTurn := by decide
theorem test_press_outside : (match transact (.press 16) State.reset with
    | .next _ => none | .fault _ => none | .refused q => some q) = some (.keyOutsideInterface 16) := by decide
/-- W2: the wait parks, sees the key pressed later, resolves without a fetch, and then goes on. -/
theorem test_key_wait : (match transactAll [.loadProgram [0xF2, 0x0A, 0x60, 0x01], .cycle, .cycle, .press 3, .cycle, .cycle]
    State.reset with
    | .next t => some (t.reg 2, t.reg 0, t.pc) | .fault _ => none | .refused _ => none) = some (3, 1, 0x204) := by decide
/-- W1: the ADD program. -/
theorem test_add_program : (match transactAll [.loadProgram [0x60, 0x0A, 0x61, 0x05, 0x80, 0x14], .cycle, .cycle, .cycle]
    State.reset with
    | .next t => some (t.reg 0, t.reg 15) | .fault _ => none | .refused _ => none) = some (0x0F, 0) := by decide

end Sys2Proof.Tests
end

