-- ==== Sys2Proof/Tests/Witness.lean ====
section
/-! SUPPORT. For each statement with hypotheses, a concrete state and operands that meet them, at the boundary of each
clause's range. -/

namespace Sys2Proof.Tests

open Sys2Proof Sys2Proof.Machine Sys2Proof.Safety

/-- The registers a policy allows at the boundary: 14 and 15 under Permit, 14 but not 15 under Fault. -/
abbrev allowsBoundary : Prop :=
  State.reset.allows 0 = true ∧ State.reset.allows 14 = true ∧ State.reset.allows 15 = false ∧
    (permit State.reset).allows 15 = true

/-- The same for two registers: each of the two may be the one that is not allowed. -/
abbrev allowsTwoBoundary : Prop :=
  (State.reset.allows 14 = true ∧ State.reset.allows 0 = true) ∧
    (State.reset.allows 15 && State.reset.allows 0) = false ∧ (State.reset.allows 0 && State.reset.allows 15) = false ∧
    ((permit State.reset).allows 15 = true ∧ (permit State.reset).allows 15 = true)

/-! ## Encoding and the cycle -/

theorem witness_DecodeOfEncode : Instr.wf (.sys 0x0EF) = true ∧ Instr.wf (.jpV0 0xFFF 15) = true ∧
    Instr.wf (.drw 15 15 15) = true ∧ Instr.wf (.ext00Cn 15) = true := by decide
theorem witness_EncodeOfDecode : decode [] 0x00FB#16 = .instr (.sys 0x0FB) ∧
    decode defaultExtendedSet 0xD121#16 = .instr (.drw 1 2 1) := by decide
theorem witness_IllegalOpcodesAreInvalid :
    (illegalOpcode 0x5001 ∧ illegalOpcode 0x8008 ∧ illegalOpcode 0x800F ∧ illegalOpcode 0x9FFF ∧ illegalOpcode 0xE09D ∧
      illegalOpcode 0xF000 ∧ illegalOpcode 0xFFFF) ∧
    ¬ illegalOpcode 0x5FF0 ∧ ¬ illegalOpcode 0x8007 ∧ ¬ illegalOpcode 0x800E ∧ ¬ illegalOpcode 0xE0A1 ∧
      ¬ illegalOpcode 0xF085 ∧ ¬ illegalOpcode 0x4FFF := by
  refine ⟨⟨?_, ?_, ?_, ?_, ?_, ?_, ?_⟩, ?_, ?_, ?_, ?_, ?_, ?_⟩ <;> decide

/-- ADD V0,V1 placed at 0x200. -/
abbrev adding : State := placeOpcode State.reset 0x8014
/-- An illegal opcode placed at 0x200. -/
abbrev failing : State := placeOpcode State.reset 0x5121

theorem witness_StepRunsDecodedInstruction : adding.fault = none ∧ adding.execState = .running ∧
    decode adding.cfg.extendedSet (memRead adding.mem adding.pc ++ memRead adding.mem (mask12 (adding.pc.toNat + 1))) =
      .instr (.addReg 0 1) := by decide
theorem witness_IllegalOpcodeStops : failing.fault = none ∧ failing.execState = .running ∧
    failing.cfg.extendedSet = defaultExtendedSet ∧ illegalOpcode failing.fetched := by decide
theorem witness_FaultNamesFetchedInstruction : step failing = .fault (.decodeFailure 0x200 0x5121) := by rfl
theorem witness_FaultIsTerminal : transact .cycle failing = .fault (.decodeFailure 0x200 0x5121) ∧
    ({ failing with fault := some (.programTooLarge 3585) } : State).fault ≠ none ∧
    transact .tick { failing with fault := some (.programTooLarge 3585) } =
      .next { failing with fault := some (.programTooLarge 3585) } :=
  ⟨rfl, by decide, rfl⟩

/-! ## Control transfer -/

theorem witness_SysAndJpJump : sysReserved 0x000 = false ∧ sysReserved 0x0EF = false ∧ sysReserved 0x0FA = false ∧
    sysReserved 0xFFF = false := by decide
theorem witness_CallPushesReturnAddress : ((State.reset.setStack (List.replicate 15 0x300#12)).stack.length < 16) ∧
    (State.reset.setStack (List.replicate 16 0x300#12)).stack.length = 16 := by decide
theorem witness_RetPopsReturnAddress : (State.reset.setStack [0x202#12]).stack = [] ++ [0x202#12] ∧
    State.reset.stack = [] := by decide
theorem witness_RetUndoesCall :
    exec (.call 0x400) State.reset = .next ((State.reset.setStack [0x200#12]).setPc 0x400) := by rfl
theorem witness_SkipsOnByte : allowsBoundary := by decide
theorem witness_SkipsOnRegister : allowsTwoBoundary ∧ (1 : Nibble) ≠ 0 ∧ (15 : Nibble) ≠ 0 := by decide

/-- JUMP_OFFSET_REG = VX. -/
abbrev jumpVx : State := State.configured State.reset fun c => { c with jumpOffsetReg := .vx }
theorem witness_JumpWithOffset : (0 : Reg).val = (0x0FF#12).toNat / 256 ∧ (15 : Reg).val = (0xF00#12).toNat / 256 ∧
    State.reset.cfg.jumpOffsetReg = .v0 ∧ (jumpVx.cfg.jumpOffsetReg = .vx ∧ jumpVx.allows 14 = true) ∧
    (jumpVx.cfg.jumpOffsetReg = .vx ∧ jumpVx.allows 15 = false) := by decide

/-! ## Loads and arithmetic -/

theorem witness_LoadsWriteOneRegister : allowsBoundary ∧ allowsTwoBoundary := by decide
theorem witness_AddByteWritesNoFlag : allowsBoundary := by decide
theorem witness_LogicOperations : allowsTwoBoundary := by decide
theorem witness_AddSetsCarry : allowsTwoBoundary := by decide
theorem witness_SubtractionsSetNotBorrow : allowsTwoBoundary := by decide

/-- SHIFT_SOURCE = Vx. -/
abbrev shiftVx : State := State.configured State.reset fun c => { c with shiftSource := .vx }
theorem witness_ShiftsSetBitShiftedOut :
    (State.reset.cfg.shiftSource = .vy ∧ State.reset.allows 0 = true ∧ State.reset.allows 14 = true) ∧
    (shiftVx.cfg.shiftSource = .vx ∧ shiftVx.allows 0 = true) ∧
    (State.reset.cfg.shiftSource = .vy ∧ (State.reset.allows 0 && State.reset.allows 15) = false) ∧
    (shiftVx.cfg.shiftSource = .vx ∧ (shiftVx.allows 15 && shiftVx.allows 15) = false) := by decide
theorem witness_RandomUnderMask : allowsBoundary := by decide

/-! ## Index, memory and framebuffer -/

theorem witness_IndexLoadAndAdd : allowsBoundary := by decide

/-- V4 = 16, a value that is no digit, under a digit policy. -/
abbrev noDigit (p : FontDigitPolicy) : State :=
  State.configured (withRegs [(4, 0x10)]) fun c => { c with fontDigitPolicy := p }
theorem witness_FontAddressOfDigit :
    ((withRegs [(4, 0x0F)]).allows 4 = true ∧ ((withRegs [(4, 0x0F)]).reg 4).toNat ≤ 15) ∧
    ((noDigit .fault).allows 4 = true ∧ ((noDigit .fault).reg 4).toNat > 15 ∧
      (noDigit .fault).cfg.fontDigitPolicy = .fault) ∧
    ((noDigit .unmasked).allows 4 = true ∧ ((noDigit .unmasked).reg 4).toNat > 15 ∧
      (noDigit .unmasked).cfg.fontDigitPolicy = .unmasked) ∧
    ((noDigit .lowNibble).allows 4 = true ∧ ((noDigit .lowNibble).reg 4).toNat > 15 ∧
      (noDigit .lowNibble).cfg.fontDigitPolicy = .lowNibble) ∧ State.reset.allows 15 = false := by decide
theorem witness_DecimalDigitsStored : allowsBoundary ∧
    ((0x303#12 ≠ 0x300#12) ∧ 0x303#12 ≠ mask12 (0x300 + 1) ∧ 0x303#12 ≠ mask12 (0x300 + 2)) := by decide
theorem witness_RegistersStored : allowsBoundary ∧ ∀ k : Reg, k ≤ 2 → 0x303#12 ≠ mask12 (0x300 + k.val) := by decide
theorem witness_RegistersLoaded : allowsBoundary := by decide
theorem witness_TargetPixel : (63 < 64 ∧ 31 < 32) ∧ ¬ (64 < 64 ∧ 31 < 32) ∧ ¬ (63 < 64 ∧ 32 < 32) := by decide

/-- V0 = V1 = 0 and I on glyph 0. -/
abbrev glyphZero : State := base [] 0x050 0x200

/-- The glyph's first pixel is met by the sprite; the pixel right of the sprite is not. -/
theorem witness_DrawFlipsSpritePixels : allowsTwoBoundary ∧ (1 : Nibble) ≠ 0 ∧ spriteHits glyphZero 0 1 5 0 0 ∧
    ¬ spriteHits glyphZero 0 1 5 0 8 := by
  refine ⟨by decide, by decide, ⟨0, by decide, 0, by decide, by decide, by decide⟩, ?_⟩
  rintro ⟨row, hr, col, hc, _, ht⟩
  have h : (glyphZero.reg 0).toNat + col < 64 ∧ (glyphZero.reg 1).toNat + row < 32 := by
    have : (5 : Nibble).toNat = 5 := rfl
    have h0 : (glyphZero.reg 0).toNat = 0 := by decide
    have h1 : (glyphZero.reg 1).toNat = 0 := by decide
    omega
  rw [target, dif_pos h] at ht
  have h2 := congrArg (fun p : Fin 32 × Fin 64 => p.2.val) (Option.some.inj ht)
  have h0 : (glyphZero.reg 0).toNat = 0 := by decide
  have h3 : (glyphZero.reg 0).toNat + col = 8 := h2
  omega
theorem witness_DrawTwiceRestores : ((0 : Reg) ≠ 15 ∧ (1 : Reg) ≠ 15 ∧
    ∃ t u, exec (.drw 0 1 5) glyphZero = .next t ∧ exec (.drw 0 1 5) t = .next u) ∧
    ∃ t u, exec .cls glyphZero = .next t ∧ exec (.drw 0 1 5) t = .next u :=
  ⟨⟨by decide, by decide, _, _, rfl, rfl⟩, _, _, rfl, rfl⟩

/-! ## Timers and keys -/

theorem witness_TimerLoads : allowsBoundary := by decide

/-- V1 = 16, above the keys, under KEY_INDEX_POLICY = LowNibble. -/
abbrev lowNibbleKeys : State :=
  State.configured (withRegs [(1, 0x10)]) fun c => { c with keyIndexPolicy := .lowNibble }
theorem witness_SkipsOnKey :
    ((withRegs [(1, 0x0F)]).allows 1 = true ∧ (15 : Key).val = ((withRegs [(1, 0x0F)]).reg 1).toNat % 16 ∧
      ((withRegs [(1, 0x0F)]).reg 1).toNat ≤ 15) ∧
    (lowNibbleKeys.allows 1 = true ∧ (0 : Key).val = (lowNibbleKeys.reg 1).toNat % 16 ∧
      lowNibbleKeys.cfg.keyIndexPolicy = .lowNibble) ∧
    ((withRegs [(1, 0x10)]).allows 1 = true ∧ ((withRegs [(1, 0x10)]).reg 1).toNat > 15 ∧
      (withRegs [(1, 0x10)]).cfg.keyIndexPolicy = .fault) ∧ State.reset.allows 15 = false := by decide
theorem witness_KeyLoadOrWait :
    ((pressing [9, 4] State.reset).allows 2 = true ∧ (pressing [9, 4] State.reset).key[(4 : Key)] = true ∧
      ∀ j : Key, j < 4 → (pressing [9, 4] State.reset).key[j] = false) ∧
    ((pressing [15] State.reset).key[(15 : Key)] = true ∧
      ∀ j : Key, j < 15 → (pressing [15] State.reset).key[j] = false) ∧
    (State.reset.allows 2 = true ∧ ∀ k : Key, State.reset.key[k] = false) ∧ State.reset.allows 15 = false := by decide

/-- A machine that waits, with some keys pressed. -/
abbrev waiting (keys : List Key) : State := (pressing keys State.reset).setExec (.waitingForKey 2)
theorem witness_WaitCycle :
    ((waiting [12, 15]).fault = none ∧ (waiting [12, 15]).execState = .waitingForKey 2 ∧
      (waiting [12, 15]).key[(12 : Key)] = true ∧ ∀ j : Key, j < 12 → (waiting [12, 15]).key[j] = false) ∧
    ((waiting []).fault = none ∧ (waiting []).execState = .waitingForKey 2 ∧
      ∀ k : Key, (waiting []).key[k] = false) := by decide

/-! ## Extended markers and the host -/

/-- EXT_BEHAVIOUR = NoOp and a pattern of the host's own. -/
abbrev skipping : State :=
  State.configured (placeOpcode State.reset 0x1234) fun c =>
    { c with extBehaviour := .noOp, extendedSet := [⟨0x1234#16, 0xFFFF#16⟩] }
theorem witness_ExtendedMarkers : skipping.cfg.extBehaviour = .noOp ∧ State.reset.cfg.extBehaviour = .fault ∧
    (skipping.fault = none ∧ skipping.execState = .running ∧ isExtended skipping.cfg.extendedSet skipping.fetched = true) ∧
    ((placeOpcode State.reset 0x00FF).fault = none ∧
      isExtended (placeOpcode State.reset 0x00FF).cfg.extendedSet (placeOpcode State.reset 0x00FF).fetched = true) := by
  decide
theorem witness_ConstructionState : ¬ (0x050 ≤ (0x04F#12).toNat ∧ (0x04F#12).toNat ≤ 0x09F) ∧
    ¬ (0x050 ≤ (0x0A0#12).toNat ∧ (0x0A0#12).toNat ≤ 0x09F) := by decide
theorem witness_ProgramLoad : (List.replicate 3584 (0 : Byte)).length ≤ 3584 ∧
    (List.replicate 3585 (0 : Byte)).length > 3584 ∧
    ¬ (0x200 ≤ (0x1FF#12).toNat ∧ (0x1FF#12).toNat < 0x200 + 3584) ∧
    (∃ t, transact (.loadProgram []) State.reset = .next t) ∧
    (adding.fault = none ∧ adding.execState = .running ∧ ∃ t, step adding = .next t) := by
  refine ⟨by rw [List.length_replicate], by rw [List.length_replicate]; decide, by decide, ⟨_, rfl⟩, by decide, by decide,
    ⟨_, rfl⟩⟩
theorem witness_TimersTick : State.reset.fault = none ∧
    ({ State.reset with fault := some (.programTooLarge 3585) } : State).fault ≠ none := by decide
theorem witness_PressAndRelease : 16 > 15 := by decide

/-! ## The whole machine -/

theorem witness_InvariantAtReset : zeroLaunch.mem.wf ∧ ({ zeroLaunch with mem := [(0, 1), (4095, 2)] } : Launch).mem.wf := by
  decide

/-- A machine at depth 16 with a cell listed. -/
abbrev deep : State := (adding.setStack (List.replicate 16 0x300#12)).setDT 7

/-- A state that meets the invariant at the greatest depth, and steps. -/
theorem witness_StepKeepsInvariant : StateInv deep ∧ ∃ t, step deep = .next t :=
  ⟨⟨by decide, by decide, fun x h => by cases h⟩, _, rfl⟩
theorem witness_EveryHostRunKeepsInvariant : zeroLaunch.mem.wf ∧
    ∃ t, transactAll [.loadProgram [0x12, 0x00], .cycle, .tick, .press 3, .cycle]
      (State.construct (defaultConfig none) zeroLaunch) = .next t := by
  refine ⟨by decide, ?_⟩
  rw [← test_reset_is_construction]
  exact ⟨_, rfl⟩
theorem witness_StepLeavesHostState : ∃ t, step adding = .next t := ⟨_, rfl⟩
theorem witness_WhoWritesWhat :
    (∃ t, exec (.call 0x400) State.reset = .next t ∧ t.stack ≠ State.reset.stack) ∧
    (∃ t, exec (.stRegs 0) (withRegs [(0, 1)]) = .next t ∧ t.mem ≠ (withRegs [(0, 1)]).mem) ∧
    (∃ t, exec .cls (State.reset.setFb (Vector.replicate 32 5)) = .next t ∧ t.fb ≠ Vector.replicate 32 5) ∧
    (∃ t, exec (.ldDT 0) (withRegs [(0, 1)]) = .next t ∧ t.dt ≠ 0) ∧
    (∃ t, exec (.ldST 0) (withRegs [(0, 1)]) = .next t ∧ t.st ≠ 0) ∧
    (∃ t, exec (.ldK 0) State.reset = .next t ∧ t.execState ≠ .running) ∧
    ∃ t, exec (.ldI 0x400) State.reset = .next t ∧ t.i ≠ State.reset.i :=
  ⟨⟨_, rfl, by decide⟩, ⟨_, rfl, by decide⟩, ⟨_, rfl, by decide⟩, ⟨_, rfl, by decide⟩, ⟨_, rfl, by decide⟩,
    ⟨_, rfl, by decide⟩, ⟨_, rfl, by decide⟩⟩
/-- V0 = 0xFF and V1 = 0x01, so that their sum carries. -/
abbrev carrying : State := withRegs [(0, 0xFF), (1, 0x01)]
theorem witness_FlagWriters : carrying.cfg.vfPolicy = .fault ∧
    ∃ t, exec (.addReg 0 1) carrying = .next t ∧ t.reg 15 ≠ carrying.reg 15 := ⟨rfl, _, rfl, by decide⟩
theorem witness_SequentialInstructionsKeepPc : movesPc (.addReg 0 1) = false ∧
    ∃ t, exec (.addReg 0 1) State.reset = .next t := ⟨rfl, _, rfl⟩
theorem witness_VFCannotBeLearned : adding.cfg.vfPolicy = .fault ∧ (∃ t, step adding = .next t) ∧
    ∃ r, step failing = .fault r := ⟨rfl, ⟨_, rfl⟩, _, rfl⟩

/-- JP 0x200 placed at 0x200, in a machine that has started. -/
abbrev halted : State := { placeOpcode State.reset 0x1200 with stage := .started }
/-- The same machine with an EXTENDED_SET that takes the jump's word: R304 does not call it parked. -/
abbrev takenJump : State := State.configured halted fun c => { c with extendedSet := [⟨0x1000#16, 0xF000#16⟩] }
theorem test_taken_jump_is_not_parked : takenJump.fetched = selfJump takenJump.pc ∧ parked takenJump = false := by decide
theorem witness_ParkedStaysParked : parked halted = true ∧ halted.stage = .started ∧
    parked (placeOpcode State.reset 0x1200) = true := by decide
theorem witness_TransactionKeepsInvariant : (StateInv deep ∧ ∃ t, transact .cycle deep = .next t) ∧
    (StateInv State.reset ∧ ∃ t, transact (.loadProgram [0x12, 0x00]) State.reset = .next t) ∧
    (∃ t, transact .tick deep = .next t) ∧ (∃ t, transact (.press 15) deep = .next t) ∧
    ∃ t, transact (.release 0) deep = .next t :=
  ⟨⟨witness_StepKeepsInvariant.1, _, rfl⟩, ⟨⟨by decide, by decide, fun x h => by cases h⟩, _, rfl⟩, ⟨_, rfl⟩, ⟨_, rfl⟩,
    _, rfl⟩

end Sys2Proof.Tests
end

section
/-! PROOFS. The statements of 00_scope.md: what a step leaves to the host. -/

namespace Sys2Proof.Machine

/-- Settles O49, over what a next state of a step can be: the meanings are the one case with content, and for them it is
`exec_keeps_host_fields` applied after the fetch's advance. -/
theorem stepLeavesHostState : Obligations.StepLeavesHostState := by
  intro s t h
  rcases step_next_cases h with rfl | ⟨i, -, -, -, hexec⟩ | ⟨op, -, -, -, rfl⟩ | ⟨x, b, -, -, -, rfl⟩
  case inl => exact ⟨rfl, rfl, rfl, rfl⟩
  case inr.inl =>
    obtain ⟨hcfg, hkey, hfault, horacle, -⟩ := exec_keeps_host_fields hexec
    exact ⟨hcfg, hkey, hfault, horacle⟩
  case inr.inr.inl => simp
  case inr.inr.inr => simp

end Sys2Proof.Machine
end

section
/-! PROOFS. What an instruction can do to the state, said once: the statements of 10_state.md about who writes what, and the
invariant of the machine, are read off it. -/

namespace Sys2Proof.Machine

open Sys2Proof Sys2Proof.Safety

/-- `Effect s i t`: the shapes that the answered next state `t` of instruction `i` in state `s` can have, one constructor per
kind of write. A shape names its instructions where it writes something that only some instructions may write. -/
inductive Effect (s : State) : Instr → State → Prop
  /-- an extended marker under EXT_BEHAVIOUR = NoOp (R284) -/
  | nothing {i : Instr} : Effect s i s
  /-- a register the policy allows, and no flag (R151 to R153, R252, R257) -/
  | load {i : Instr} {x : Reg} {b : Byte} (hx : s.allows x = true) : Effect s i (s.setReg x b)
  /-- a drawn byte (R164) -/
  | random {x : Reg} {kk b : Byte} (hx : s.allows x = true) : Effect s (.rnd x kk) (s.setReg x b).countDraw
  /-- a result with VF as LOGIC_VF says (R154 to R156) -/
  | logic {i : Instr} {x y : Reg} {b : Byte} (hi : i ∈ [Instr.orReg x y, .andReg x y, .xorReg x y])
      (hx : s.allows x = true) : Effect s i (s.writeLogic x b)
  /-- a result with its flag (R157 to R161) -/
  | flagged {i : Instr} {x y : Reg} {p : Byte × Bool}
      (hi : i ∈ [Instr.addReg x y, .sub x y, .subn x y, .shr x y, .shl x y]) : Effect s i (s.writeFlagged x p)
  /-- a jump (R120, R121, R128) -/
  | jump {i : Instr} {a : Addr} (hi : movesPc i = true) : Effect s i (s.setPc a)
  /-- a conditional skip (R124 to R127, R255, R256) -/
  | skip {i : Instr} {c : Bool} (hi : movesPc i = true) : Effect s i (s.skipIf c)
  /-- CALL with room on the stack (R122) -/
  | call {nnn : Addr} (hroom : s.stack.length < stackDepth) :
      Effect s (.call nnn) ((s.setStack (s.stack ++ [s.pc])).setPc nnn)
  /-- RET to the top of the stack (R123) -/
  | ret {a : Addr} (htop : s.stack.getLast? = some a) : Effect s .ret ((s.setStack s.stack.dropLast).setPc a)
  /-- the index register alone (R190 to R192) -/
  | index {i : Instr} {x : Reg} {nnn a : Addr} (hi : i ∈ [Instr.ldI nnn, .addI x, .ldF x]) : Effect s i (s.setI a)
  /-- LD B,Vx (R193) -/
  | storeDigits {x : Reg} : Effect s (.ldB x) (s.setMem (memWriteBytes s.mem s.i (bcdDigits (s.reg x))))
  /-- LD [I],Vx (R194) -/
  | storeRegs {x : Reg} :
      Effect s (.stRegs x) ((s.setMem (memWriteBytes s.mem s.i (s.regsUpTo x))).setI (addrPlus s.i (x.val + 1)))
  /-- LD Vx,[I] (R195) -/
  | loadRegs {x : Reg} (hx : s.allows x = true) :
      Effect s (.ldRegs x) ((s.loadRegs x).setI (addrPlus s.i (x.val + 1)))
  /-- CLS (R221) -/
  | clear : Effect s .cls (s.setFb clearedFb)
  /-- DRW Vx,Vy,n (R222) -/
  | sprite {x y : Reg} {n : Nibble} : Effect s (.drw x y n) ((s.setFb (s.drawn x y n).1).setFlag (s.drawn x y n).2)
  /-- LD DT,Vx (R253) -/
  | delayTimer {x : Reg} : Effect s (.ldDT x) (s.setDT (s.reg x))
  /-- LD ST,Vx (R254) -/
  | soundTimer {x : Reg} : Effect s (.ldST x) (s.setST (s.reg x))
  /-- LD Vx,K with no key pressed (R257) -/
  | wait {x : Reg} (hx : s.allows x = true) : Effect s (.ldK x) (s.setExec (.waitingForKey x))

/-- Every answered next state has one of the shapes of `Effect`: the checks pass, and the shape is the meaning's own. -/
theorem exec_effect {i : Instr} {s t : State} (h : exec i s = .next t) : Effect s i t := by
  cases i
  case cls => cases h; exact .clear
  case ret => rw [exec, execRet, pop_next] at h; obtain ⟨a, htop, ⟨⟩⟩ := h; exact .ret htop
  case sys | jp => cases h; exact .jump rfl
  case call => rw [exec, execCall, push_next] at h; obtain ⟨hroom, ⟨⟩⟩ := h; exact .call hroom
  case seImm | sneImm => obtain ⟨-, ⟨⟩⟩ := checkReg_next.mp h; exact .skip rfl
  case seReg | sneReg => obtain ⟨-, -, ⟨⟩⟩ := checkRegs_next.mp h; exact .skip rfl
  case skp | sknp =>
    obtain ⟨-, h⟩ := checkReg_next.mp h
    obtain ⟨-, ⟨⟩⟩ := withKeyIndex_next.mp h
    exact .skip rfl
  case jpV0 =>
    rw [exec, execJpV0, withJumpOffset_next] at h
    obtain ⟨-, ⟨⟩⟩ | ⟨-, -, ⟨⟩⟩ := h <;> exact .jump rfl
  case ldImm | addImm | ldFromDT => obtain ⟨hx, ⟨⟩⟩ := checkReg_next.mp h; exact .load hx
  case ldReg => obtain ⟨hx, -, ⟨⟩⟩ := checkRegs_next.mp h; exact .load hx
  case rnd => obtain ⟨hx, ⟨⟩⟩ := checkReg_next.mp h; exact .random hx
  case orReg x y | andReg x y | xorReg x y =>
    obtain ⟨hx, -, ⟨⟩⟩ := checkRegs_next.mp h
    exact .logic (y := y) (by simp) hx
  case addReg x y | sub x y | subn x y =>
    obtain ⟨-, -, ⟨⟩⟩ := checkRegs_next.mp h
    exact .flagged (y := y) (by simp)
  case shr x y | shl x y =>
    obtain ⟨-, h⟩ := checkReg_next.mp h
    obtain ⟨-, -, ⟨⟩⟩ | ⟨-, ⟨⟩⟩ := withShiftSource_next.mp h <;> exact .flagged (y := y) (by simp)
  case ldI nnn => cases h; exact .index (x := 0) (nnn := nnn) (by simp)
  case addI x => obtain ⟨-, ⟨⟩⟩ := checkReg_next.mp h; exact .index (x := x) (nnn := 0) (by simp)
  case ldF x =>
    obtain ⟨-, h⟩ := checkReg_next.mp h
    obtain ⟨a, ⟨⟩⟩ := withFontAddr_next h
    exact .index (x := x) (nnn := 0) (by simp)
  case ldB => obtain ⟨-, ⟨⟩⟩ := checkReg_next.mp h; exact .storeDigits
  case stRegs => obtain ⟨-, ⟨⟩⟩ := checkReg_next.mp h; exact .storeRegs
  case ldRegs => obtain ⟨hx, ⟨⟩⟩ := checkReg_next.mp h; exact .loadRegs hx
  case drw => obtain ⟨-, -, ⟨⟩⟩ := checkRegs_next.mp h; exact .sprite
  case ldDT => obtain ⟨-, ⟨⟩⟩ := checkReg_next.mp h; exact .delayTimer
  case ldST => obtain ⟨-, ⟨⟩⟩ := checkReg_next.mp h; exact .soundTimer
  case ldK =>
    obtain ⟨hx, h⟩ := checkReg_next.mp h
    split at h <;> cases h
    · exact .load hx
    · exact .wait hx
  case ext00Cn | ext00Dn | ext00FB | ext00FC | ext00FD | ext00FE | ext00FF | extDxy0 | extFx30 | extFx75 | extFx85 =>
    obtain ⟨-, rfl⟩ := executeExtended_next.mp h
    exact .nothing

/-- A running machine without a fault executes what it decodes (R103). -/
theorem step_of_running {s : State} (hf : s.fault = none) (he : s.execState = .running) :
    step s = executeDecoded s.decoded s.advance := by
  simp [step, runCycle, hf, he]

/-! ## The register 15 under VF_POLICY = Fault (R22) -/

/-- Under VF_POLICY = Fault an allowed register is not VF. -/
theorem State.ne_flagReg_of_allows {s : State} {r : Reg} (hp : s.cfg.vfPolicy = .fault) (h : s.allows r = true) :
    r ≠ flagReg := by
  simpa [State.allows, hp] using h

/-- A register other than VF is below it. -/
theorem lt_flagReg {x : Reg} (hx : x ≠ flagReg) : x < flagReg := Fin.lt_last_iff_ne_last.mpr hx

/-- Reading a register after a write to another one. -/
theorem State.setReg_reg_of_ne (s : State) {r q : Reg} (b : Byte) (h : q ≠ r) : (s.setReg r b).reg q = s.reg q := by
  rw [State.setReg_reg, if_neg h]

end Sys2Proof.Machine
end

section
/-! PROOFS. The invariant of the machine (10_state.md R22, R30, R31; 20_memory.md R60, R61; 45_timers_keys.md R258). -/

namespace Sys2Proof.Machine

open Sys2Proof Sys2Proof.Safety

/-- The invariant reads four fields: it goes over to a state that agrees in them. -/
theorem stateInv_of_eq {s t : State} (hs : StateInv s) (hmem : t.mem = s.mem) (hstack : t.stack = s.stack)
    (hexec : t.execState = s.execState) (hcfg : t.cfg = s.cfg) : StateInv t := by
  simpa only [StateInv, State.allows, hmem, hstack, hexec, hcfg] using hs

/-- A block of byte writes keeps the invariant. -/
theorem stateInv_memWriteBytes {s : State} (hs : StateInv s) (a : Addr) (bs : List Byte) :
    StateInv (s.setMem (memWriteBytes s.mem a bs)) := by
  obtain ⟨hmem, hstack, hwait⟩ := hs
  exact ⟨memWriteBytes_wf hmem a bs, hstack, hwait⟩

/-- A stack of at most 16 entries keeps the invariant. -/
theorem stateInv_setStack {s : State} (hs : StateInv s) {l : List Addr} (hl : l.length ≤ stackDepth) :
    StateInv (s.setStack l) := by
  obtain ⟨hmem, -, hwait⟩ := hs
  exact ⟨hmem, hl, hwait⟩

/-- An execution state keeps the invariant if it waits, where it waits at all, for an allowed register. -/
theorem stateInv_setExec {s : State} (hs : StateInv s) {e : ExecState}
    (he : ∀ x, e = .waitingForKey x → s.allows x = true) : StateInv (s.setExec e) := by
  obtain ⟨hmem, hstack, -⟩ := hs
  exact ⟨hmem, hstack, he⟩

/-- Every instruction keeps the invariant: CALL only pushes below depth 16, RET only shortens the stack, memory is only
written in blocks of bytes, and a wait begins only after the register check. -/
theorem exec_keeps_stateInv {i : Instr} {s t : State} (hs : StateInv s) (h : exec i s = .next t) : StateInv t := by
  cases exec_effect h
  case call hroom =>
    have hlen : (s.stack ++ [s.pc]).length ≤ stackDepth := by simpa using hroom
    exact stateInv_of_eq (stateInv_setStack hs hlen) rfl rfl rfl rfl
  case ret =>
    have hlen : s.stack.dropLast.length ≤ stackDepth := by
      obtain ⟨-, hstack, -⟩ := hs
      rw [List.length_dropLast]
      omega
    exact stateInv_of_eq (stateInv_setStack hs hlen) rfl rfl rfl rfl
  case storeDigits => exact stateInv_memWriteBytes hs _ _
  case storeRegs x => exact stateInv_of_eq (stateInv_memWriteBytes hs s.i (s.regsUpTo x)) rfl rfl rfl rfl
  case wait hx => exact stateInv_setExec hs fun _ h => by cases h; exact hx
  all_goals exact stateInv_of_eq hs (by simp) (by simp) (by simp) (by simp)

/-- Settles O47, over what a next state of a step can be. -/
theorem stepKeepsInvariant : Obligations.StepKeepsInvariant := by
  intro s t hs h
  rcases step_next_cases h with rfl | ⟨i, -, -, -, hexec⟩ | ⟨op, -, -, -, rfl⟩ | ⟨x, b, -, -, -, rfl⟩
  · exact hs
  · exact exec_keeps_stateInv (s := s.advance) (stateInv_of_eq hs rfl rfl rfl rfl) hexec
  · exact stateInv_of_eq hs rfl rfl rfl rfl
  · exact stateInv_setExec (stateInv_of_eq hs rfl rfl rfl rfl) nofun

/-- loadProgram answers a next state only by writing the bytes from 0x200 on (R66). -/
theorem loadProgram_next {bytes : List Byte} {s t : State} (h : loadProgram bytes s = .next t) :
    t = { s with mem := memWriteBytes s.mem programBase bytes, stage := .loaded } := by
  unfold loadProgram at h
  split at h
  · split at h <;> cases h
    rfl
  · cases h

/-- press and release answer a next state only by writing the flag of a key (R299). -/
theorem hostKey_next {k : Nat} {down : Bool} {s t : State} (h : hostKey k down s = .next t) :
    ∃ j : Key, t = setKey j down s := by
  unfold hostKey at h
  split at h <;> cases h
  exact ⟨_, rfl⟩

/-- A tick writes the timers alone, which the invariant does not read. -/
theorem tick_keeps_stateInv {s : State} (hs : StateInv s) : StateInv (tick s) := by
  unfold tick
  split
  · exact hs
  · exact stateInv_of_eq hs rfl rfl rfl rfl

/-- A key event writes a key flag alone, which the invariant does not read. -/
theorem hostKey_keeps_stateInv {k : Nat} {down : Bool} {s t : State} (hs : StateInv s)
    (h : hostKey k down s = .next t) : StateInv t := by
  obtain ⟨j, rfl⟩ := hostKey_next h
  exact stateInv_of_eq hs rfl rfl rfl rfl

/-- Settles O55, by the cases of the call: a cycle is a step, and a load is a block of byte writes. -/
theorem transactionKeepsInvariant : Obligations.TransactionKeepsInvariant := by
  intro tr s t hs h
  cases tr with
  | loadProgram bytes =>
    rw [loadProgram_next h]
    exact stateInv_of_eq (stateInv_memWriteBytes hs programBase bytes) rfl rfl rfl rfl
  | cycle => exact stepKeepsInvariant s t hs h
  | tick => cases h; exact tick_keeps_stateInv hs
  | press k => exact hostKey_keeps_stateInv hs h
  | release k => exact hostKey_keeps_stateInv hs h

/-- Settles O46: the machine starts Running with an empty stack, and the font is a block of byte writes. -/
theorem invariantAtReset : Obligations.InvariantAtReset :=
  ⟨⟨reset_mem_wf, Nat.zero_le _, nofun⟩, fun _ _ hm => ⟨memWriteBytes_wf hm _ _, Nat.zero_le _, nofun⟩⟩

end Sys2Proof.Machine
end

section
/-! PROOFS. Two runs that differ in VF alone (10_state.md R22, R23). -/

namespace Sys2Proof.Machine

open Sys2Proof

/-- Two results agree up to VF: the same fault, or next states that differ in VF alone. -/
inductive SameUpToVF : Result → Result → Prop
  | next (t : State) (c : Byte) : SameUpToVF (.next t) (.next (t.setReg flagReg c))
  | fault (r : Fault) : SameUpToVF (.fault r) (.fault r)

/-- A next state agrees with itself. -/
theorem SameUpToVF.next_self (t : State) : SameUpToVF (.next t) (.next t) := by
  have h : t.setReg flagReg (t.reg flagReg) = t := by simp [State.setReg, State.reg]
  simpa only [h] using SameUpToVF.next t (t.reg flagReg)

/-- Writes to two different registers commute. -/
theorem State.setReg_comm (s : State) {r q : Reg} (b c : Byte) (h : r ≠ q) :
    (s.setReg r b).setReg q c = (s.setReg q c).setReg r b := by
  simp only [State.setReg, Vector.set_comm b c (Fin.val_ne_of_ne h)]

/-- A flagged write hides the VF of before, whatever register the result goes to (R162). -/
theorem State.writeFlagged_setReg_flagReg (s : State) (b : Byte) (x : Reg) (p : Byte × Bool) :
    (s.setReg flagReg b).writeFlagged x p = s.writeFlagged x p := by
  unfold State.writeFlagged State.setFlag
  by_cases hx : x = flagReg
  · simp only [hx, State.setReg_setReg_self]
  · rw [State.setReg_comm s _ _ (Ne.symm hx), State.setReg_setReg_self]

theorem State.setReg_lowestPressed (s : State) (r : Reg) (b : Byte) :
    (s.setReg r b).lowestPressed = s.lowestPressed := rfl

theorem State.setReg_rndByte (s : State) (r : Reg) (b : Byte) : (s.setReg r b).rndByte = s.rndByte := rfl

theorem State.setReg_takesKey (s : State) (r : Reg) (b v : Byte) : (s.setReg r b).takesKey v = s.takesKey v := rfl

section
variable {s : State} {b : Byte} {i : Instr}

theorem sameUpToVF_setReg {x : Reg} (v : Byte) (hx : x ≠ flagReg) :
    SameUpToVF (.next (s.setReg x v)) (.next ((s.setReg flagReg b).setReg x v)) := by
  rw [State.setReg_comm s b v hx.symm]
  exact .next _ b

theorem sameUpToVF_writeFlagged (x : Reg) (p : Byte × Bool) :
    SameUpToVF (.next (s.writeFlagged x p)) (.next ((s.setReg flagReg b).writeFlagged x p)) := by
  rw [State.writeFlagged_setReg_flagReg]
  exact .next_self _

theorem sameUpToVF_setFb_setFlag (fb : Framebuffer) (f : Bool) :
    SameUpToVF (.next ((s.setFb fb).setFlag f)) (.next (((s.setReg flagReg b).setFb fb).setFlag f)) := by
  have h : ((s.setReg flagReg b).setFb fb).setFlag f = (s.setFb fb).setFlag f :=
    State.setReg_setReg_self (s.setFb fb) flagReg b _
  rw [h]
  exact .next_self _

theorem sameUpToVF_writeLogic {x : Reg} (v : Byte) (hx : x ≠ flagReg) :
    SameUpToVF (.next (s.writeLogic x v)) (.next ((s.setReg flagReg b).writeLogic x v)) := by
  unfold State.writeLogic
  rw [State.setReg_cfg]
  cases s.cfg.logicVF with
  | untouched => exact sameUpToVF_setReg v hx
  | zero => exact sameUpToVF_writeFlagged x (v, false)

theorem sameUpToVF_skipIf (c : Bool) :
    SameUpToVF (.next (s.skipIf c)) (.next ((s.setReg flagReg b).skipIf c)) := by
  cases c <;> exact .next _ b

theorem sameUpToVF_executeExtended (op : Opcode) :
    SameUpToVF (executeExtended op s) (executeExtended op (s.setReg flagReg b)) := by
  unfold executeExtended
  rw [State.setReg_cfg]
  cases s.cfg.extBehaviour
  · exact .fault _
  · exact .next s b

theorem sameUpToVF_withKeyIndex {v : Byte} {k k' : Key → Result} (hk : ∀ j, SameUpToVF (k j) (k' j)) :
    SameUpToVF (withKeyIndex i v s k) (withKeyIndex i v (s.setReg flagReg b) k') := by
  unfold withKeyIndex
  rw [State.setReg_takesKey]
  split
  · exact hk _
  · exact .fault _

theorem sameUpToVF_withFontAddr {d : Byte} {k k' : Addr → Result} (hk : ∀ a, SameUpToVF (k a) (k' a)) :
    SameUpToVF (withFontAddr i d s k) (withFontAddr i d (s.setReg flagReg b) k') := by
  unfold withFontAddr
  rw [State.setReg_cfg]
  split
  · exact hk _
  · cases s.cfg.fontDigitPolicy with
    | fault => exact .fault _
    | unmasked => exact hk _
    | lowNibble => exact hk _

theorem sameUpToVF_call (nnn : Addr) : SameUpToVF (execCall nnn s) (execCall nnn (s.setReg flagReg b)) := by
  unfold execCall push
  rw [State.setReg_stack]
  split
  · exact .next _ b
  · exact .fault _

theorem sameUpToVF_ret : SameUpToVF (execRet s) (execRet (s.setReg flagReg b)) := by
  unfold execRet pop
  rw [State.setReg_stack]
  cases s.stack.getLast? with
  | some a => exact .next _ b
  | none => exact .fault _

/-- The end of a key wait writes its register in both runs, or neither. -/
theorem sameUpToVF_resolveKeyWait (x : Reg) :
    SameUpToVF (resolveKeyWait x s) (resolveKeyWait x (s.setReg flagReg b)) := by
  unfold resolveKeyWait
  rw [State.setReg_lowestPressed]
  cases s.lowestPressed with
  | none => exact .next s b
  | some v =>
    dsimp only
    by_cases hx : x = flagReg
    · rw [hx, State.setReg_setReg_self]
      exact .next_self _
    · rw [State.setReg_comm s b v (Ne.symm hx)]
      exact .next _ b

variable (hp : s.cfg.vfPolicy = .fault)
include hp

/-- A register check fails in both runs, or names a register other than VF in both. -/
theorem sameUpToVF_checkReg {r : Reg} {k k' : Result} (hk : r ≠ flagReg → SameUpToVF k k') :
    SameUpToVF (checkReg i r s k) (checkReg i r (s.setReg flagReg b) k') := by
  unfold checkReg
  rw [State.setReg_allows]
  split <;> rename_i h
  · exact hk (State.ne_flagReg_of_allows hp h)
  · exact .fault _

theorem sameUpToVF_checkRegs {x y : Reg} {k k' : Result} (hk : x ≠ flagReg → y ≠ flagReg → SameUpToVF k k') :
    SameUpToVF (checkRegs i x y s k) (checkRegs i x y (s.setReg flagReg b) k') :=
  sameUpToVF_checkReg hp fun hx => sameUpToVF_checkReg hp fun hy => hk hx hy

theorem sameUpToVF_withShiftSource {x y : Reg} {k k' : Byte → Result} (hx : x ≠ flagReg)
    (hk : ∀ v, SameUpToVF (k v) (k' v)) :
    SameUpToVF (withShiftSource i x y s k) (withShiftSource i x y (s.setReg flagReg b) k') := by
  unfold withShiftSource
  rw [State.setReg_cfg]
  cases s.cfg.shiftSource with
  | vy =>
    refine sameUpToVF_checkReg hp fun hy => ?_
    rw [State.setReg_reg_of_ne s b hy]
    exact hk _
  | vx =>
    rw [State.setReg_reg_of_ne s b hx]
    exact hk _

theorem sameUpToVF_jpV0 (nnn : Addr) (x : Reg) :
    SameUpToVF (execJpV0 nnn x s) (execJpV0 nnn x (s.setReg flagReg b)) := by
  unfold execJpV0 withJumpOffset
  rw [State.setReg_cfg]
  cases s.cfg.jumpOffsetReg with
  | v0 =>
    rw [State.setReg_reg_of_ne s b (by decide)]
    exact .next _ b
  | vx =>
    refine sameUpToVF_checkReg hp fun hx => ?_
    rw [State.setReg_reg_of_ne s b hx]
    exact .next _ b

end

/-- The block load of LD Vx,[I] without VF commutes with a write to VF. -/
theorem State.loadRegs_setReg_flagReg (s : State) (b : Byte) {x : Reg} (hx : x ≠ flagReg) :
    (s.setReg flagReg b).loadRegs x = (s.loadRegs x).setReg flagReg b := by
  have hreg : ∀ q, ((s.setReg flagReg b).loadRegs x).reg q = ((s.loadRegs x).setReg flagReg b).reg q := by
    intro q
    rw [State.loadRegs_reg, State.setReg_reg, State.setReg_reg, State.loadRegs_reg]
    by_cases hq : q = flagReg
    · rw [hq, if_neg (lt_flagReg hx).not_ge, if_pos rfl, if_pos rfl]
    · rw [if_neg hq, if_neg hq]
      rfl
  have hv : ((s.setReg flagReg b).loadRegs x).v = ((s.loadRegs x).setReg flagReg b).v :=
    Vector.ext fun k hk => hreg ⟨k, hk⟩
  exact State.ext_fields hv rfl rfl rfl rfl rfl rfl rfl rfl rfl rfl rfl rfl rfl rfl

/-- The registers that LD [I],Vx stores without VF do not depend on VF. -/
theorem State.regsUpTo_setReg_flagReg (s : State) (b : Byte) {x : Reg} (hx : x ≠ flagReg) :
    (s.setReg flagReg b).regsUpTo x = s.regsUpTo x := by
  refine List.ext_getElem (by simp) fun k hk _ => ?_
  have hkx : k < x.val + 1 := by simpa using hk
  have hne : (⟨k, by omega⟩ : Reg) ≠ flagReg := ne_of_lt (lt_of_le_of_lt (Nat.le_of_lt_succ hkx) (lt_flagReg hx))
  rw [regsUpTo_getElem, regsUpTo_getElem, State.setReg_reg_of_ne s b hne]

/-- What DRW draws at registers other than VF does not depend on VF. -/
theorem State.drawn_setReg_flagReg (s : State) (b : Byte) {x y : Reg} (n : Nibble) (hx : x ≠ flagReg)
    (hy : y ≠ flagReg) : (s.setReg flagReg b).drawn x y n = s.drawn x y n := by
  unfold State.drawn
  rw [State.setReg_reg_of_ne s b hx, State.setReg_reg_of_ne s b hy]
  rfl

/-- Every instruction takes two runs that differ in VF alone to results that agree up to VF: the values it reads through a
register check are the same in both, and what it writes to VF does not depend on the VF of before. -/
theorem exec_sameUpToVF (i : Instr) {s : State} (b : Byte) (hp : s.cfg.vfPolicy = .fault) :
    SameUpToVF (exec i s) (exec i (s.setReg flagReg b)) := by
  cases i
  case cls | sys | jp | ldI => exact .next _ b
  case call nnn => exact sameUpToVF_call nnn
  case ret => exact sameUpToVF_ret
  case seImm | sneImm =>
    refine sameUpToVF_checkReg hp fun hx => ?_
    rw [State.setReg_reg_of_ne s b hx]
    exact sameUpToVF_skipIf _
  case seReg | sneReg =>
    refine sameUpToVF_checkRegs hp fun hx hy => ?_
    rw [State.setReg_reg_of_ne s b hx, State.setReg_reg_of_ne s b hy]
    exact sameUpToVF_skipIf _
  case skp | sknp =>
    refine sameUpToVF_checkReg hp fun hx => ?_
    rw [State.setReg_reg_of_ne s b hx]
    exact sameUpToVF_withKeyIndex fun j => sameUpToVF_skipIf _
  case jpV0 nnn x => exact sameUpToVF_jpV0 hp nnn x
  case ldImm | ldFromDT => exact sameUpToVF_checkReg hp fun hx => sameUpToVF_setReg _ hx
  case rnd =>
    refine sameUpToVF_checkReg hp fun hx => ?_
    rw [State.setReg_rndByte, State.setReg_comm s b _ hx.symm]
    exact .next _ b
  case addImm =>
    refine sameUpToVF_checkReg hp fun hx => ?_
    rw [State.setReg_reg_of_ne s b hx]
    exact sameUpToVF_setReg _ hx
  case ldReg =>
    refine sameUpToVF_checkRegs hp fun hx hy => ?_
    rw [State.setReg_reg_of_ne s b hy]
    exact sameUpToVF_setReg _ hx
  case orReg | andReg | xorReg =>
    refine sameUpToVF_checkRegs hp fun hx hy => ?_
    rw [State.setReg_reg_of_ne s b hx, State.setReg_reg_of_ne s b hy]
    exact sameUpToVF_writeLogic _ hx
  case addReg | sub | subn =>
    refine sameUpToVF_checkRegs hp fun hx hy => ?_
    rw [State.setReg_reg_of_ne s b hx, State.setReg_reg_of_ne s b hy]
    exact sameUpToVF_writeFlagged _ _
  case shr | shl =>
    exact sameUpToVF_checkReg hp fun hx => sameUpToVF_withShiftSource hp hx fun v => sameUpToVF_writeFlagged _ _
  case drw =>
    refine sameUpToVF_checkRegs hp fun hx hy => ?_
    rw [State.drawn_setReg_flagReg s b _ hx hy]
    exact sameUpToVF_setFb_setFlag _ _
  case addI | ldB | ldDT | ldST =>
    refine sameUpToVF_checkReg hp fun hx => ?_
    rw [State.setReg_reg_of_ne s b hx]
    exact .next _ b
  case ldF =>
    refine sameUpToVF_checkReg hp fun hx => ?_
    rw [State.setReg_reg_of_ne s b hx]
    exact sameUpToVF_withFontAddr fun a => .next _ b
  case stRegs =>
    refine sameUpToVF_checkReg hp fun hx => ?_
    rw [State.regsUpTo_setReg_flagReg s b hx]
    exact .next _ b
  case ldRegs =>
    refine sameUpToVF_checkReg hp fun hx => ?_
    rw [State.loadRegs_setReg_flagReg s b hx]
    exact .next _ b
  case ldK =>
    refine sameUpToVF_checkReg hp fun hx => ?_
    rw [State.setReg_lowestPressed]
    cases s.lowestPressed with
    | some v => exact sameUpToVF_setReg v hx
    | none => exact .next _ b
  case ext00Cn | ext00Dn | ext00FB | ext00FC | ext00FD | ext00FE | ext00FF | extDxy0 | extFx30 | extFx75 | extFx85 =>
    exact sameUpToVF_executeExtended _

/-- The fetch and the decoding read no register, so a step of the two runs executes the same thing. -/
theorem step_sameUpToVF {s : State} (b : Byte) (hp : s.cfg.vfPolicy = .fault) :
    SameUpToVF (step s) (step (s.setReg flagReg b)) := by
  unfold step runCycle
  rw [State.setReg_fault, State.setReg_execState]
  cases s.fault with
  | some r => exact .next s b
  | none =>
    cases s.execState with
    | waitingForKey x => exact sameUpToVF_resolveKeyWait x
    | running =>
      change SameUpToVF (executeDecoded s.decoded s.advance) (executeDecoded s.decoded (s.advance.setReg flagReg b))
      cases s.decoded with
      | instr i => exact exec_sameUpToVF i b hp
      | extended op => exact sameUpToVF_executeExtended op
      | invalid op => exact .fault _

/-- What agrees with a next state is a next state that differs from it in VF alone. -/
theorem SameUpToVF.of_next {t : State} {r : Result} (h : SameUpToVF (.next t) r) :
    ∃ c, r = .next (t.setReg flagReg c) := by
  cases h with
  | next _ c => exact ⟨c, rfl⟩

/-- What agrees with a fault is the same fault. -/
theorem SameUpToVF.of_fault {f : Fault} {r : Result} (h : SameUpToVF (.fault f) r) : r = .fault f := by
  cases h
  rfl

/-- Settles O53: each step of the two runs agrees up to VF. -/
theorem vFCannotBeLearned : Obligations.VFCannotBeLearned := by
  intro s b hp
  have hstep := step_sameUpToVF b hp
  exact ⟨fun t ht => (ht ▸ hstep).of_next, fun r hr => (hr ▸ hstep).of_fault⟩

end Sys2Proof.Machine
end

section
/-! PROOFS. Who writes what (10_state.md R23, R24, R27, R33, R35, R37, R40; 20_memory.md R71), and the step of a running
machine (30_encoding.md R103). -/

namespace Sys2Proof.Machine

open Sys2Proof Sys2Proof.Safety

/-- Settles O50, over the shapes of an instruction's effect: a field that the shape does not write is as it was, and the
shapes that write one of these fields name their instructions. -/
theorem whoWritesWhat : Obligations.WhoWritesWhat := by
  intro i s t h
  cases exec_effect h
  case index x nnn a hi =>
    have hwriter : i = .ldI nnn ∨ i = .addI x ∨ i = .ldF x := by simpa using hi
    have hi' : ∃ x nnn, i = .ldI nnn ∨ i = .addI x ∨ i = .ldF x ∨ i = .stRegs x ∨ i = .ldRegs x :=
      ⟨x, nnn, by tauto⟩
    simp [hi']
  all_goals simp

/-- Settles O52, over the shapes of an instruction's effect: those that write pc are of instructions that move it. -/
theorem sequentialInstructionsKeepPc : Obligations.SequentialInstructionsKeepPc := by
  intro i s t hi h
  cases exec_effect h
  case jump hmoves => simp [hmoves] at hi
  case skip hmoves => simp [hmoves] at hi
  case call | ret => simp [movesPc] at hi
  all_goals simp

/-- A flag as a byte is 0 or 1 (R23). -/
theorem flagByte_eq (f : Bool) : (if f then 1 else 0 : Byte) = 0 ∨ (if f then 1 else 0 : Byte) = 1 := by
  cases f <;> simp

/-- Settles O51, over the shapes of an instruction's effect: a register write passed the check, so it is not to VF, and
what is left are the flag writes. -/
theorem flagWriters : Obligations.FlagWriters := by
  intro i s t hp h hne
  change t.reg flagReg ≠ s.reg flagReg at hne
  change (t.reg flagReg = 0 ∨ t.reg flagReg = 1) ∧ _
  cases exec_effect h
  case load x b hx => exact absurd (State.setReg_reg_of_ne s b (State.ne_flagReg_of_allows hp hx).symm) hne
  case random x _ b hx => exact absurd (State.setReg_reg_of_ne s b (State.ne_flagReg_of_allows hp hx).symm) hne
  case loadRegs x hx =>
    have hlt := lt_flagReg (State.ne_flagReg_of_allows hp hx)
    rw [State.setI_reg, State.loadRegs_reg, if_neg hlt.not_ge] at hne
    exact absurd rfl hne
  case logic x y b hx hi =>
    rw [State.writeLogic_reg, if_neg (State.ne_flagReg_of_allows hp hx).symm] at hne ⊢
    by_cases hzero : s.cfg.logicVF = .zero
    · rw [if_pos ⟨hzero, rfl⟩]
      exact ⟨.inl rfl, x, y, 0, .inr ⟨hzero, hi⟩⟩
    · simp [hzero] at hne
  case flagged x y p hi =>
    rw [State.writeFlagged_reg, if_pos rfl]
    refine ⟨flagByte_eq p.2, x, y, 0, .inl ?_⟩
    simp only [List.mem_cons, List.not_mem_nil] at hi ⊢
    tauto
  case sprite x y n =>
    rw [State.setFlag_reg, if_pos rfl]
    exact ⟨flagByte_eq _, x, y, n, .inl (by simp)⟩
  all_goals simp at hne

/-- Settles O5: the pair of bytes at pc is what the cycle fetches. -/
theorem stepRunsDecodedInstruction : Obligations.StepRunsDecodedInstruction := by
  intro s i hf he hd
  have hdecoded : s.decoded = .instr i := hd
  calc step s = executeDecoded s.decoded s.advance := step_of_running hf he
    _ = exec i s.advance := by rw [hdecoded, executeDecoded]

end Sys2Proof.Machine
end

section
/-! PROOFS. The statements of 20_memory.md: addresses (R61), the byte (R62), the 16-bit read (R63), and the program that the
host copies into memory (R66, R297). -/

namespace Sys2Proof.Machine

open Sys2Proof

/-- Settles O10: `& 0xFFF` is the remainder modulo 2 ^ 12. -/
theorem addressesAreMasked : Obligations.AddressesAreMasked := by
  have hmask (v : Nat) : (mask12 v).toNat = v &&& 0xFFF := by
    rw [mask12_toNat]
    exact (Nat.and_two_pow_sub_one_eq_mod v 12).symm
  exact ⟨hmask, fun a k => hmask (a.toNat + k)⟩

/-- Settles O11: the byte written is read back, and a write leaves every other byte alone. -/
theorem readAfterWrite : Obligations.ReadAfterWrite := by
  intro m a a' b
  split <;> rename_i h
  · rw [h, memRead_memWrite_self]
  · exact memRead_memWrite_of_ne m b h

/-- Settles O12: the word is made of the byte at the address, high, and the byte at the next one, low. -/
theorem wordReadIsBigEndian : Obligations.WordReadIsBigEndian := fun m a =>
  wordOf_toNat (memRead m a) (memRead m (addrPlus a 1))

/-! ## Loading a program -/

/-- A program that fits is loaded on a constructed machine (R66). -/
theorem loadProgram_construct {bytes : List Byte} (hl : bytes.length ≤ maxProgram) (cfg : Config) (init : Launch) :
    loadProgram bytes (State.construct cfg init) =
      .next { State.construct cfg init with
        mem := memWriteBytes (State.construct cfg init).mem programBase bytes, stage := .loaded } :=
  if_pos hl

/-- A program that does not fit stops the load with its length (R66). -/
theorem loadProgram_construct_tooLarge {bytes : List Byte} (hl : ¬ bytes.length ≤ maxProgram) (cfg : Config)
    (init : Launch) : loadProgram bytes (State.construct cfg init) = .fault (.programTooLarge bytes.length) :=
  if_neg hl

/-- Past the construction loadProgram is refused (R297). -/
theorem loadProgram_of_stage_ne {s : State} (hs : s.stage ≠ .constructed) (bytes : List Byte) :
    loadProgram bytes s = .refused .loadProgramOutOfTurn :=
  if_neg fun ⟨hconstructed, _⟩ => hs hconstructed

/-- A block that starts at the program base and does not wrap reaches only the addresses from 0x200 to its end (R66). -/
theorem memRead_memWriteBytes_programBase_outside (m : Memory) {bytes : List Byte} (hl : bytes.length ≤ maxProgram)
    {a : Addr} (ha : ¬ (0x200 ≤ a.toNat ∧ a.toNat < 0x200 + bytes.length)) :
    memRead (memWriteBytes m programBase bytes) a = memRead m a := by
  refine memRead_memWriteBytes_outside m programBase a bytes fun k hk hak => ha ?_
  have hbase : programBase.toNat = 0x200 := rfl
  rw [hak, addrPlus_toNat, hbase]
  unfold maxProgram at hl
  omega

/-- No execution of a decoded opcode moves the stage (log entry 17). -/
theorem executeDecoded_keeps_stage {d : Decoded} {s t : State} (h : executeDecoded d s = .next t) :
    t.stage = s.stage := by
  cases d with
  | instr i =>
    obtain ⟨-, -, -, -, hstage⟩ := exec_keeps_host_fields h
    exact hstage
  | extended op =>
    obtain ⟨-, rfl⟩ := executeExtended_next.mp h
    rfl
  | invalid op => cases h

/-- A Running cycle leaves the machine started (R297). -/
theorem step_stage_of_running {s t : State} (hf : s.fault = none) (he : s.execState = .running)
    (h : step s = .next t) : t.stage = .started := by
  rw [step_of_running hf he] at h
  exact executeDecoded_keeps_stage h

/-- Settles O43: the load is one block write from 0x200 on, and after it, as after a Running cycle, the machine is past the
stage in which a load is answered. -/
theorem programLoad : Obligations.ProgramLoad := by
  refine ⟨fun cfg init bytes =>
      ⟨fun hl => ⟨_, loadProgram_construct hl cfg init, rfl, ?inside, ?outside⟩, fun hl => ?tooLarge⟩,
    fun bytes bytes' s t => ⟨fun h => ?again, fun hf he h => ?late⟩⟩
  case inside =>
    intro k hk
    exact memRead_memWriteBytes_inside _ programBase bytes (by omega) k hk
  case outside => exact fun a ha => memRead_memWriteBytes_programBase_outside _ hl ha
  case tooLarge => exact loadProgram_construct_tooLarge hl.not_ge cfg init
  case again =>
    have hstage : t.stage = .loaded := by rw [loadProgram_next h]
    exact loadProgram_of_stage_ne (by simp [hstage]) bytes'
  case late =>
    have hstage := step_stage_of_running hf he h
    exact loadProgram_of_stage_ne (by simp [hstage]) bytes

end Sys2Proof.Machine
end

section
/-! PROOFS. The statements of 30_encoding.md about words: the decoder undoes the encoder (R91 to R97), and the illegal
opcodes are R98's. The markers of the default EXTENDED_SET (R97) are read off an opcode's fields first. -/

namespace Sys2Proof

open Sys2Proof.Safety

/-! ## Masked words and their fields -/

@[simp] theorem opT_ofNat (v : Nat) : opT (BitVec.ofNat 16 v) = BitVec.ofNat 4 (v / 4096) := by
  apply BitVec.eq_of_toNat_eq
  rw [opT_toNat, BitVec.toNat_ofNat, BitVec.toNat_ofNat]
  omega

@[simp] theorem opT_and_FFF0 (op : Opcode) : opT (op &&& 0xFFF0#16) = opT op := by
  apply BitVec.eq_of_toNat_eq
  rw [opT_toNat, and_FFF0_eq, opT_toNat]
  omega

@[simp] theorem opT_and_F00F (op : Opcode) : opT (op &&& 0xF00F#16) = opT op := by
  rw [and_F00F_eq, opT_encXYN]

@[simp] theorem opT_and_F0FF (op : Opcode) : opT (op &&& 0xF0FF#16) = opT op := by
  rw [and_F0FF_eq, opT_encXKK]

@[simp] theorem opNNN_and_FFF0 (op : Opcode) : opNNN (op &&& 0xFFF0#16) = opNNN op &&& 0xFF0#12 := by
  simp [opNNN, BitVec.extractLsb'_and]

/-- With top nibble 0 an opcode is told by its address field. -/
theorem eq_ofNat_iff_opNNN {op : Opcode} {v : Nat} (h : opT op = 0x0#4) (hv : v < 4096) :
    op = BitVec.ofNat 16 v ↔ opNNN op = BitVec.ofNat 12 v := by
  have hlt : op.toNat / 4096 = 0 := by rw [← opT_toNat, h]; rfl
  simp only [BitVec.toNat_eq, opNNN_toNat, BitVec.toNat_ofNat]
  omega

theorem and_F00F_eq_iff {op : Opcode} {t n : Nibble} :
    op &&& 0xF00F#16 = encXYN t 0 0 n ↔ opT op = t ∧ opN op = n := by
  rw [and_F00F_eq]
  refine ⟨fun h => ⟨?_, ?_⟩, fun ⟨ht, hn⟩ => by rw [ht, hn]⟩
  · simpa using congrArg opT h
  · simpa using congrArg opN h

theorem and_F0FF_eq_iff {op : Opcode} {t : Nibble} {kk : Byte} :
    op &&& 0xF0FF#16 = encXKK t 0 kk ↔ opT op = t ∧ opKK op = kk := by
  rw [and_F0FF_eq]
  refine ⟨fun h => ⟨?_, ?_⟩, fun ⟨ht, hk⟩ => by rw [ht, hk]⟩
  · simpa using congrArg opT h
  · simpa using congrArg opKK h

/-! ## A word from what is known of its fields -/

section
variable {op : Opcode} {t n : Nibble} {kk : Byte}

theorem encNNN_of_opT (ht : (opT op).toNat = t.toNat) : encNNN t (opNNN op) = op := by
  rw [← BitVec.eq_of_toNat_eq ht, encNNN_fields]

theorem encXKK_of_opT (ht : (opT op).toNat = t.toNat) : encXKK t (opX op) (opKK op) = op := by
  rw [← BitVec.eq_of_toNat_eq ht, encXKK_fields]

theorem encXKK_of_opT_opKK (ht : (opT op).toNat = t.toNat) (hk : opKK op = kk) : encXKK t (opX op) kk = op := by
  rw [← hk, encXKK_of_opT ht]

theorem encXYN_of_opT (ht : (opT op).toNat = t.toNat) : encXYN t (opX op) (opY op) (opN op) = op := by
  rw [← BitVec.eq_of_toNat_eq ht, encXYN_fields]

theorem encXYN_of_opT_opN (ht : (opT op).toNat = t.toNat) (hn : opN op = n) : encXYN t (opX op) (opY op) n = op := by
  rw [← hn, encXYN_of_opT ht]

theorem encXKK_of_and_F0FF (h : op &&& 0xF0FF#16 = encXKK t 0 kk) : encXKK t (opX op) kk = op := by
  obtain ⟨rfl, rfl⟩ := and_F0FF_eq_iff.mp h
  exact encXKK_fields op

theorem encXYN_of_and_F00F (h : op &&& 0xF00F#16 = encXYN t 0 0 n) : encXYN t (opX op) (opY op) n = op := by
  obtain ⟨rfl, rfl⟩ := and_F00F_eq_iff.mp h
  exact encXYN_fields op

theorem encXYN_of_and_FFF0 {y : Reg} (h : op &&& 0xFFF0#16 = encXYN 0x0#4 0 y 0x0#4) :
    encXYN 0x0#4 0 y (opN op) = op := by
  have hv : op.toNat / 16 = y.val := by
    simpa [encXYN_toNat] using (and_FFF0_eq op).symm.trans (congrArg BitVec.toNat h)
  apply BitVec.eq_of_toNat_eq
  calc (encXYN 0x0#4 0 y (opN op)).toNat = y.val * 16 + op.toNat % 16 := by simp [encXYN_toNat, opN_toNat]
    _ = op.toNat := by omega

end

/-! ## The extended markers by top nibble (R97) -/

/-- The markers have top nibble 0, D or F. -/
theorem markerRow_eq_none_of_opT {op : Opcode} (h0 : opT op ≠ 0x0#4) (hD : opT op ≠ 0xD#4) (hF : opT op ≠ 0xF#4) :
    markerRow op = none := by
  simp [markerRow, ne_of_apply_ne opT, h0, hD, hF]

/-- Among the opcodes with top nibble 0, those SYS cannot carry are CLS, RET and the markers (R120). -/
theorem sysReserved_eq_false_iff {op : Opcode} (h : opT op = 0x0#4) :
    sysReserved (opNNN op) = false ↔ markerRow op = none ∧ op ≠ 0x00E0#16 ∧ op ≠ 0x00EE#16 := by
  simp only [sysReserved, Bool.or_eq_false_iff, beq_eq_false_iff_ne, ne_eq, markerRow, opT_and_FFF0, h,
    Nat.reduceLT, eq_ofNat_iff_opNNN, opNNN_and_FFF0, opT_and_F00F, opT_ofNat, Nat.reduceDiv, BitVec.reduceEq,
    not_false_eq_true, ne_of_apply_ne opT, ↓reduceIte, opT_and_F0FF, ite_eq_iff, reduceCtorEq, and_false, false_or,
    and_true]
  tauto

theorem markerRow_of_opT_D {op : Opcode} (h : opT op = 0xD#4) :
    markerRow op = if opN op = 0x0#4 then some (.extDxy0 (opX op) (opY op)) else none := by
  have hD : op &&& 0xF00F#16 = 0xD000#16 ↔ opT op = 0xD#4 ∧ opN op = 0x0#4 :=
    and_F00F_eq_iff (t := 0xD#4) (n := 0x0#4)
  simp [markerRow, ne_of_apply_ne opT, hD, h]

theorem markerRow_of_opT_F {op : Opcode} (h : opT op = 0xF#4) :
    markerRow op =
      if opKK op = 0x30#8 then some (.extFx30 (opX op))
      else if opKK op = 0x75#8 then some (.extFx75 (opX op))
      else if opKK op = 0x85#8 then some (.extFx85 (opX op))
      else none := by
  have hF (kk : Byte) : op &&& 0xF0FF#16 = encXKK 0xF#4 0 kk ↔ opKK op = kk := by simp [and_F0FF_eq_iff, h]
  have h30 : op &&& 0xF0FF#16 = 0xF030#16 ↔ opKK op = 0x30#8 := hF 0x30#8
  have h75 : op &&& 0xF0FF#16 = 0xF075#16 ↔ opKK op = 0x75#8 := hF 0x75#8
  have h85 : op &&& 0xF0FF#16 = 0xF085#16 ↔ opKK op = 0x85#8 := hF 0x85#8
  simp [markerRow, ne_of_apply_ne opT, h30, h75, h85, h]

/-- The default EXTENDED_SET takes the opcodes that stand in a marker's row, and no other. -/
theorem isExtended_default (op : Opcode) : isExtended defaultExtendedSet op = (markerRow op).isSome := by
  have hFFFF : op &&& 0xFFFF#16 = op := BitVec.and_allOnes
  simp only [isExtended, defaultExtendedSet, List.any_cons, List.any_nil, hFFFF, markerRow, apply_ite Option.isSome,
    Option.isSome_some, Option.isSome_none, Bool.if_true_left, beq_eq_decide]

theorem decode_of_markerRow_none {op : Opcode} (h : markerRow op = none) :
    decode defaultExtendedSet op = decodeBase op := by
  simp [decode, isExtended_default, h]

theorem decode_of_markerRow_some {op : Opcode} {i : Instr} (h : markerRow op = some i) :
    decode defaultExtendedSet op = .instr i := by
  simp [decode, isExtended_default, decodeExtended, h]

/-! ## Decoding a word (R91, R93, R97) -/

/-- Settles O1, an instruction at a time: its word is a marker's exactly when it is one, and its fields are its operands. -/
theorem decodeOfEncode : Obligations.DecodeOfEncode := by
  intro i hwf
  cases i
  case cls | ret | ext00FB | ext00FC | ext00FD | ext00FE | ext00FF => rfl
  case ext00Cn n | ext00Dn n => revert n; decide
  case extDxy0 x y => exact decode_of_markerRow_some (by simp [encode, markerRow_of_opT_D])
  case extFx30 | extFx75 | extFx85 => exact decode_of_markerRow_some (by simp [encode, markerRow_of_opT_F])
  case sys nnn =>
    have hres : sysReserved (opNNN (encNNN 0x0#4 nnn)) = false := by simpa [Instr.wf] using hwf
    obtain ⟨hm, hcls, hret⟩ := (sysReserved_eq_false_iff (opT_encNNN ..)).mp hres
    simp [encode, decode_of_markerRow_none hm, decodeBase, decode0, hcls, hret]
  case jpV0 nnn x =>
    have hx : x.val = nnn.toNat / 256 := by simpa [Instr.wf] using hwf
    have hfield : opX (encNNN 0xB#4 nnn) = x := Fin.ext ((opX_encNNN_val ..).trans hx.symm)
    simp [encode, decode_of_markerRow_none, markerRow_eq_none_of_opT, decodeBase, hfield]
  case drw x y n =>
    have hn : n ≠ 0#4 := by simpa [Instr.wf] using hwf
    simp [encode, decode_of_markerRow_none, markerRow_of_opT_D, decodeBase, hn]
  case ldFromDT | ldK | ldDT | ldST | addI | ldF | ldB | stRegs | ldRegs =>
    simp [encode, decode_of_markerRow_none, markerRow_of_opT_F, decodeBase, decodeF]
  all_goals simp [encode, decode_of_markerRow_none, markerRow_eq_none_of_opT, decodeBase, decode8, decodeE]

/-! ## The word of what was decoded (R90, R95) -/

/-- A marker read from an opcode has that opcode as its word, and is well-formed. -/
theorem encode_and_wf_of_markerRow {op : Opcode} {i : Instr} (h : markerRow op = some i) :
    encode i = op ∧ i.wf = true := by
  unfold markerRow at h
  obtain ⟨h0C, ⟨⟩⟩ | ⟨-, h⟩ := ite_eq_iff.mp h
  · exact ⟨encXYN_of_and_FFF0 (y := 0xC) h0C, rfl⟩
  obtain ⟨h0D, ⟨⟩⟩ | ⟨-, h⟩ := ite_eq_iff.mp h
  · exact ⟨encXYN_of_and_FFF0 (y := 0xD) h0D, rfl⟩
  iterate 5
    obtain ⟨rfl, ⟨⟩⟩ | ⟨-, h⟩ := ite_eq_iff.mp h
    · exact ⟨rfl, rfl⟩
  obtain ⟨hD, ⟨⟩⟩ | ⟨-, h⟩ := ite_eq_iff.mp h
  · exact ⟨encXYN_of_and_F00F (t := 0xD#4) (n := 0x0#4) hD, rfl⟩
  obtain ⟨h30, ⟨⟩⟩ | ⟨-, h⟩ := ite_eq_iff.mp h
  · exact ⟨encXKK_of_and_F0FF (t := 0xF#4) (kk := 0x30#8) h30, rfl⟩
  obtain ⟨h75, ⟨⟩⟩ | ⟨-, h⟩ := ite_eq_iff.mp h
  · exact ⟨encXKK_of_and_F0FF (t := 0xF#4) (kk := 0x75#8) h75, rfl⟩
  obtain ⟨h85, ⟨⟩⟩ | ⟨-, ⟨⟩⟩ := ite_eq_iff.mp h
  exact ⟨encXKK_of_and_F0FF (t := 0xF#4) (kk := 0x85#8) h85, rfl⟩

section
variable {op : Opcode} {i : Instr}

theorem encode_of_decode0 (ht : (opT op).toNat = 0x0) (h : decode0 op = .instr i) : encode i = op := by
  unfold decode0 at h
  split_ifs at h with hcls hret <;> cases h
  · exact hcls.symm
  · exact hret.symm
  · exact encNNN_of_opT ht

theorem encode_of_decode8 (ht : (opT op).toNat = 0x8) (h : decode8 op = .instr i) : encode i = op := by
  have hword (n : Nibble) (hn : (opN op).toNat = n.toNat) : encXYN 0x8#4 (opX op) (opY op) n = op :=
    encXYN_of_opT_opN ht (BitVec.eq_of_toNat_eq hn)
  unfold decode8 at h
  split at h <;> rename_i hn <;> cases h <;> exact hword _ hn

theorem encode_of_decodeE (ht : (opT op).toNat = 0xE) (h : decodeE op = .instr i) : encode i = op := by
  unfold decodeE at h
  split_ifs at h with hk hk <;> cases h <;> exact encXKK_of_opT_opKK ht hk

theorem encode_of_decodeF (ht : (opT op).toNat = 0xF) (h : decodeF op = .instr i) : encode i = op := by
  unfold decodeF at h
  iterate 9
    obtain ⟨hk, ⟨⟩⟩ | ⟨-, h⟩ := ite_eq_iff.mp h
    · exact encXKK_of_opT_opKK ht hk
  cases h

/-- The base table drops no bit (R91). Its branches, in order, are the top nibbles 0 to F. -/
theorem encode_of_decodeBase (h : decodeBase op = .instr i) : encode i = op := by
  unfold decodeBase at h
  split at h <;> rename_i ht
  case h_1 => exact encode_of_decode0 ht h
  case h_2 | h_3 | h_11 | h_12 => cases h; exact encNNN_of_opT ht
  case h_4 | h_5 | h_7 | h_8 | h_13 => cases h; exact encXKK_of_opT ht
  case h_6 | h_10 =>
    split_ifs at h with hn
    cases h
    exact encXYN_of_opT_opN ht hn
  case h_9 => exact encode_of_decode8 ht h
  case h_14 => cases h; exact encXYN_of_opT ht
  case h_15 => exact encode_of_decodeE ht h
  case h_16 => exact encode_of_decodeF ht h
  case h_17 => cases h

/-- Whatever the EXTENDED_SET, the decoder drops no bit. -/
theorem encode_of_decode {ext : List Pattern} (h : decode ext op = .instr i) : encode i = op := by
  unfold decode decodeExtended at h
  split at h
  · split at h <;> cases h
    exact (encode_and_wf_of_markerRow ‹_›).1
  · exact encode_of_decodeBase h

/-- Past the markers the base table answers only well-formed instructions: SYS, JP V0 and DRW are the ones with a
condition on their operands. -/
theorem wf_of_decodeBase (hm : markerRow op = none) (h : decodeBase op = .instr i) : i.wf = true := by
  obtain rfl := encode_of_decodeBase h
  cases i
  case sys nnn =>
    have hcls : encode (.sys nnn) ≠ 0x00E0#16 := fun e => by rw [e] at h; cases h
    have hret : encode (.sys nnn) ≠ 0x00EE#16 := fun e => by rw [e] at h; cases h
    have hres := (sysReserved_eq_false_iff (opT_encNNN 0x0#4 nnn)).mpr ⟨hm, hcls, hret⟩
    simpa [Instr.wf] using hres
  case jpV0 nnn x =>
    have hx : opX (encNNN 0xB#4 nnn) = x := by simpa [encode, decodeBase] using h
    simpa [Instr.wf, ← hx] using opX_encNNN_val 0xB#4 nnn
  case drw x y n => simpa [encode, markerRow_of_opT_D, Instr.wf] using hm
  all_goals rfl

theorem wf_of_decode_default (h : decode defaultExtendedSet op = .instr i) : i.wf = true := by
  cases hm : markerRow op with
  | none => exact wf_of_decodeBase hm (decode_of_markerRow_none hm ▸ h)
  | some j =>
    obtain ⟨⟩ := (decode_of_markerRow_some hm).symm.trans h
    exact (encode_and_wf_of_markerRow hm).2

end

/-- Settles O2: neither the markers' rows nor the base table drop a bit. -/
theorem encodeOfDecode : Obligations.EncodeOfDecode :=
  ⟨fun _ _ _ => encode_of_decode, fun _ _ => wf_of_decode_default⟩

/-! ## The illegal opcodes (R98) -/

/-- A row of a decoding table keeps "an instruction, or the default answer". -/
theorem ite_instr_cases {c : Prop} [Decidable c] {i : Instr} {d e : Decoded} (h : d = e ∨ ∃ j, d = .instr j) :
    (if c then .instr i else d) = e ∨ ∃ j, (if c then .instr i else d) = .instr j := by
  split
  · exact .inr ⟨i, rfl⟩
  · exact h

/-- The base table answers an instruction or Invalid with the opcode it was given, nothing else (R94). -/
theorem decodeBase_cases (op : Opcode) : decodeBase op = .invalid op ∨ ∃ i, decodeBase op = .instr i := by
  unfold decodeBase
  split
  case h_1 => exact ite_instr_cases (ite_instr_cases (.inr ⟨_, rfl⟩))
  case h_6 | h_10 => exact ite_instr_cases (.inl rfl)
  case h_9 => unfold decode8; split <;> simp
  case h_15 => exact ite_instr_cases (ite_instr_cases (.inl rfl))
  case h_16 =>
    iterate 9 refine ite_instr_cases ?_
    exact .inl rfl
  all_goals simp

theorem decode_default_cases (op : Opcode) :
    decode defaultExtendedSet op = .invalid op ∨ ∃ i, decode defaultExtendedSet op = .instr i := by
  cases hm : markerRow op with
  | none => simpa [decode_of_markerRow_none hm] using decodeBase_cases op
  | some i => exact .inr ⟨i, decode_of_markerRow_some hm⟩

theorem decode8_eq_invalid_iff {op : Opcode} :
    decode8 op = .invalid op ↔ (opN op).toNat ∈ [0x8, 0x9, 0xA, 0xB, 0xC, 0xD, 0xF] := by
  have hlt := (opN op).isLt
  unfold decode8
  split
  case h_10 =>
    simp only [imp_false, List.mem_cons, List.not_mem_nil, or_false, true_iff] at *
    omega
  all_goals simp [*]

theorem decodeE_eq_invalid_iff {op : Opcode} : decodeE op = .invalid op ↔ (opKK op).toNat ∉ [0x9E, 0xA1] := by
  simp [decodeE, ite_eq_iff, BitVec.toNat_eq]

/-- With top nibble F, the opcodes no row takes: the three markers' low bytes and the base table's nine are the others. -/
theorem decode_F_eq_invalid_iff {op : Opcode} (ht : opT op = 0xF#4) :
    markerRow op = none ∧ decodeF op = .invalid op ↔
      (opKK op).toNat ∉ [0x07, 0x0A, 0x15, 0x18, 0x1E, 0x29, 0x30, 0x33, 0x55, 0x65, 0x75, 0x85] := by
  simp only [markerRow_of_opT_F ht, decodeF, ite_eq_iff, BitVec.toNat_eq, BitVec.toNat_ofNat, Nat.reducePow,
    Nat.reduceMod, reduceCtorEq, and_false, and_true, false_or, List.mem_cons, List.not_mem_nil, or_false, not_or]
  tauto

theorem decode_default_eq_invalid_iff_base {op : Opcode} :
    decode defaultExtendedSet op = .invalid op ↔ markerRow op = none ∧ decodeBase op = .invalid op := by
  cases hm : markerRow op <;> simp [hm, decode_of_markerRow_none, decode_of_markerRow_some]

/-- R98's list, group by group: top nibbles 5, 8, 9, E and F have illegal opcodes, the others none. -/
theorem decode_default_eq_invalid_iff {op : Opcode} :
    decode defaultExtendedSet op = .invalid op ↔ illegalOpcode op := by
  rw [decode_default_eq_invalid_iff_base]
  simp only [illegalOpcode, ← opT_toNat, ← opN_toNat, ← opKK_toNat]
  unfold decodeBase
  split
  case h_1 ht => simp [ht, decode0, ite_eq_iff]
  case h_6 ht | h_9 ht | h_10 ht | h_15 ht =>
    have hm : markerRow op = none := by
      apply markerRow_eq_none_of_opT <;> simp [BitVec.toNat_eq, ht]
    simp [ht, hm, decode8_eq_invalid_iff, decodeE_eq_invalid_iff, BitVec.toNat_eq]
  case h_16 ht =>
    rw [decode_F_eq_invalid_iff (BitVec.eq_of_toNat_eq ht)]
    simp [ht]
  case h_17 =>
    have hlt := (opT op).isLt
    generalize (opT op).toNat = t at *
    interval_cases t <;> contradiction
  all_goals simp [*]

/-- Settles O3: the opcodes answered with Invalid are R98's, and there is no third answer. -/
theorem illegalOpcodesAreInvalid : Obligations.IllegalOpcodesAreInvalid := fun op =>
  ⟨decode_default_eq_invalid_iff.mpr,
    fun hlegal => (decode_default_cases op).resolve_left (mt decode_default_eq_invalid_iff.mp hlegal)⟩

/-- Settles O4: nine of the words are those of well-formed instructions, the tenth is illegal. -/
theorem sampleWordsDecode : Obligations.SampleWordsDecode :=
  ⟨decodeOfEncode .ret rfl, decodeOfEncode (.call 0x200) rfl, decodeOfEncode (.ldImm 0 0x0A) rfl,
    decodeOfEncode (.addReg 0 1) rfl, decodeOfEncode (.jpV0 0x123 1) rfl, decodeOfEncode (.ldK 2) rfl,
    decodeOfEncode (.ldI 0x2F0) rfl, decodeOfEncode (.drw 1 2 1) rfl, decodeOfEncode (.extDxy0 1 2) rfl,
    (illegalOpcodesAreInvalid 0x5121).1 (by decide)⟩

end Sys2Proof

namespace Sys2Proof.Machine

open Sys2Proof

/-- Settles O6: an illegal opcode is decoded to Invalid, and executing Invalid is the fault, at the pc of the fetch. -/
theorem illegalOpcodeStops : Obligations.IllegalOpcodeStops := by
  intro s hf he hext hillegal
  have hdecoded : s.decoded = .invalid s.fetched := by
    rw [State.decoded, hext]
    exact (illegalOpcodesAreInvalid s.fetched).1 hillegal
  calc step s = executeDecoded s.decoded s.advance := step_of_running hf he
    _ = .fault (.decodeFailure s.pc s.fetched) := by rw [hdecoded, executeDecoded, State.advance_instrAddr]

end Sys2Proof.Machine
end

section
/-! PROOFS. The statements of 41_control_flow.md: jumps, the call stack and conditional skips. What each shared operation
answers in the case at hand is said first. -/

namespace Sys2Proof.Machine

open Sys2Proof Sys2Proof.Safety

/-! ## The call stack (R31, R32) -/

section
variable {i : Instr} {a : Addr} {s : State}

theorem push_of_length_lt {k : State → Result} (h : s.stack.length < stackDepth) :
    push i a s k = k (s.setStack (s.stack ++ [a])) :=
  if_pos h

theorem push_of_full {k : State → Result} (h : s.stack.length = stackDepth) :
    push i a s k = .fault (.stackOverflow s.instrAddr (encode i) a) :=
  if_neg h.not_lt

theorem pop_of_stack_eq_append {l : List Addr} {k : Addr → State → Result} (h : s.stack = l ++ [a]) :
    pop i s k = k a (s.setStack l) := by
  simp [pop, h]

theorem pop_of_stack_eq_nil {k : Addr → State → Result} (h : s.stack = []) :
    pop i s k = .fault (.stackUnderflow s.instrAddr (encode i)) := by
  simp [pop, h, raise]

end

theorem exec_call (nnn : Addr) (s : State) :
    exec (.call nnn) s = push (.call nnn) s.pc s fun t => .next (t.setPc nnn) := rfl

theorem exec_ret (s : State) : exec .ret s = pop .ret s fun a t => .next (t.setPc a) := rfl

/-- Settles O14, by the two cases of the push. -/
theorem callPushesReturnAddress : Obligations.CallPushesReturnAddress := by
  refine ⟨fun nnn => decodeOfEncode (.call nnn) rfl, fun nnn s => ⟨fun hroom => ?room, fun hfull => ?full⟩⟩
  case room => rw [exec_call, push_of_length_lt hroom]; rfl
  case full => rw [exec_call, push_of_full hfull]

/-- Settles O15, by the two cases of the pop. -/
theorem retPopsReturnAddress : Obligations.RetPopsReturnAddress := by
  refine ⟨decodeOfEncode .ret rfl, fun s => ⟨fun l a htop => ?top, fun hnil => ?empty⟩⟩
  case top => rw [exec_ret, pop_of_stack_eq_append htop]; rfl
  case empty => rw [exec_ret, pop_of_stack_eq_nil hnil]; rfl

/-- Settles O16: CALL answers only with the return address on top of the old stack, and RET takes it off. -/
theorem retUndoesCall : Obligations.RetUndoesCall := by
  intro nnn s t h
  rw [exec_call, push_next] at h
  obtain ⟨-, ⟨⟩⟩ := h
  rw [exec_ret, pop_of_stack_eq_append (l := s.stack) (a := s.pc) rfl]
  rfl

/-! ## Skips (R124 to R127) -/

/-- A skip on equality moves pc alone, by 2 and wrapping (R27). -/
theorem State.skipIf_beq (s : State) (a b : Byte) :
    s.skipIf (a == b) = { s with pc := if a = b then mask12 (s.pc.toNat + 2) else s.pc } := by
  by_cases h : a = b
  · simp [State.skipIf, h, State.setPc, addrPlus]
  · simp [State.skipIf, h]

/-- A skip on difference moves pc alone, by 2 and wrapping (R27). -/
theorem State.skipIf_bne (s : State) (a b : Byte) :
    s.skipIf (a != b) = { s with pc := if a = b then s.pc else mask12 (s.pc.toNat + 2) } := by
  by_cases h : a = b
  · simp [State.skipIf, h]
  · simp [State.skipIf, h, State.setPc, addrPlus]

/-- Settles O17: past the register check SE and SNE are a skip on equality and on difference. -/
theorem skipsOnByte : Obligations.SkipsOnByte := by
  refine ⟨fun x kk => ⟨decodeOfEncode (.seImm x kk) rfl, decodeOfEncode (.sneImm x kk) rfl⟩,
    fun x kk s => ⟨fun hx => ⟨?se, ?sne⟩, fun hx => ⟨checkReg_of_not_allows hx, checkReg_of_not_allows hx⟩⟩⟩
  case se => rw [← State.skipIf_beq]; exact checkReg_of_allows hx
  case sne => rw [← State.skipIf_bne]; exact checkReg_of_allows hx

/-- Top nibbles 5 and 9 with a low nibble other than 0 are illegal (R98). -/
theorem illegalOpcode_encXYN {t n : Nibble} (ht : t = 0x5#4 ∨ t = 0x9#4) (hn : n ≠ 0) (x y : Reg) :
    illegalOpcode (encXYN t x y n) := by
  have hn' : n.toNat ≠ 0 := fun h => hn (BitVec.eq_of_toNat_eq h)
  unfold illegalOpcode
  rw [← opT_toNat, ← opN_toNat, opT_encXYN, opN_encXYN]
  rcases ht with rfl | rfl <;> simp [hn']

/-- Settles O18: past the register checks SE and SNE are a skip on equality and on difference. -/
theorem skipsOnRegister : Obligations.SkipsOnRegister := by
  refine ⟨fun x y => ⟨decodeOfEncode (.seReg x y) rfl, decodeOfEncode (.sneReg x y) rfl⟩, fun x y n hn => ⟨?five, ?nine⟩,
    fun x y s => ⟨fun hx hy => ⟨?se, ?sne⟩, fun h => ⟨checkRegs_of_not_allows h, checkRegs_of_not_allows h⟩⟩⟩
  case five => exact (illegalOpcodesAreInvalid _).1 (illegalOpcode_encXYN (.inl rfl) hn x y)
  case nine => exact (illegalOpcodesAreInvalid _).1 (illegalOpcode_encXYN (.inr rfl) hn x y)
  case se => rw [← State.skipIf_beq]; exact checkRegs_of_allows hx hy
  case sne => rw [← State.skipIf_bne]; exact checkRegs_of_allows hx hy

/-! ## Jumps (R120, R121, R128) -/

section
variable {i : Instr} {x : Reg} {s : State} {k : Byte → Result}

/-- Under JUMP_OFFSET_REG = V0 the offset is V0, whatever the bits 11:8. -/
theorem withJumpOffset_of_v0 (h : s.cfg.jumpOffsetReg = .v0) : withJumpOffset i x s k = k (s.reg 0) := by
  simp [withJumpOffset, h]

/-- Under JUMP_OFFSET_REG = VX the offset is the register of the bits 11:8, checked. -/
theorem withJumpOffset_of_vx (h : s.cfg.jumpOffsetReg = .vx) :
    withJumpOffset i x s k = checkReg i x s (k (s.reg x)) := by
  simp [withJumpOffset, h]

end

theorem exec_jpV0 (nnn : Addr) (x : Reg) (s : State) :
    exec (.jpV0 nnn x) s =
      withJumpOffset (.jpV0 nnn x) x s fun off => .next (s.setPc (addrPlus nnn off.toNat)) := rfl

/-- Settles O19, by JUMP_OFFSET_REG, and under VX by the register check. -/
theorem jumpWithOffset : Obligations.JumpWithOffset := by
  refine ⟨fun nnn x hx => ?decode, fun nnn x s => ⟨fun hv0 => ?v0, fun hvx hx => ?vx, fun hvx hx => ?reserved⟩⟩
  case decode => exact decodeOfEncode (.jpV0 nnn x) (by simpa [Instr.wf] using hx)
  case v0 => rw [exec_jpV0, withJumpOffset_of_v0 hv0]; rfl
  case vx => rw [exec_jpV0, withJumpOffset_of_vx hvx, checkReg_of_allows hx]; rfl
  case reserved => rw [exec_jpV0, withJumpOffset_of_vx hvx, checkReg_of_not_allows hx]; rfl

/-- Settles O13: the meaning of both is one write of pc. -/
theorem sysAndJpJump : Obligations.SysAndJpJump :=
  ⟨fun nnn hres => decodeOfEncode (.sys nnn) (by simp [Instr.wf, hres]), fun nnn => decodeOfEncode (.jp nnn) rfl,
    fun _ _ => ⟨rfl, rfl⟩⟩

end Sys2Proof.Machine
end

section
/-! PROOFS. The statements of 42_alu.md: loads, arithmetic, shifts and the random byte. The flag computations are said as
numbers first, then what the registers hold after a result is written with its flag (R162). -/

namespace Sys2Proof.Machine

open Sys2Proof Sys2Proof.Safety

/-! ## The flag computations as numbers (R150, R158 to R161) -/

section
variable (a b : Byte)

theorem checkedAdd_fst_toNat : (checkedAdd a b).1.toNat = (a.toNat + b.toNat) % 256 :=
  BitVec.toNat_ofNat _ 8

theorem checkedAdd_snd : (checkedAdd a b).2 = decide (a.toNat + b.toNat > 255) := rfl

theorem checkedSub_fst_toNat : ((checkedSub a b).1.toNat : Int) = ((a.toNat : Int) - b.toNat) % 256 := by
  rw [checkedSub, BitVec.toNat_ofInt]
  exact Int.toNat_of_nonneg (Int.emod_nonneg _ (by decide))

theorem checkedSub_snd : (checkedSub a b).2 = decide (a.toNat < b.toNat) := rfl

/-- The not-borrow: no borrow exactly when the first operand is at least the second (R158). -/
theorem subNotBorrow_snd : (subNotBorrow a b).2 = decide (a.toNat ≥ b.toNat) := by
  simp [subNotBorrow, checkedSub_snd, ← decide_not]

/-- The bit SHR shifts out, as a number, is the remainder by 2. -/
theorem ite_shiftRightOne_snd : (if (shiftRightOne b).2 then 1 else 0) = b.toNat % 2 := by
  simp only [shiftRightOne_snd, decide_eq_true_eq]
  split <;> omega

/-- The bit SHL shifts out, as a number, is the quotient by 128. -/
theorem ite_shiftLeftOne_snd : (if (shiftLeftOne b).2 then 1 else 0) = b.toNat / 128 := by
  have hlt := b.isLt
  simp only [shiftLeftOne_snd, decide_eq_true_eq]
  split <;> omega

end

/-- Settles O21, from what the two operations give as numbers. -/
theorem checkedArithmetic : Obligations.CheckedArithmetic := fun a b =>
  ⟨checkedAdd_fst_toNat a b, decide_eq_true_iff, checkedSub_fst_toNat a b, decide_eq_true_iff⟩

/-! ## The registers after a write -/

/-- A result and its flag change no field but the registers. -/
theorem State.writeFlagged_frame (s : State) (x : Reg) (p : Byte × Bool) :
    s.writeFlagged x p = { s with v := (s.writeFlagged x p).v } := rfl

/-- A logic operation changes no field but the registers, under either LOGIC_VF. -/
theorem State.writeLogic_frame (s : State) (x : Reg) (b : Byte) :
    s.writeLogic x b = { s with v := (s.writeLogic x b).v } := by
  unfold State.writeLogic
  split <;> rfl

/-- The registers as numbers after a result and its flag: the flag is 0 or 1 and is written last (R162). -/
theorem State.writeFlagged_reg_toNat (s : State) (x q : Reg) (p : Byte × Bool) :
    ((s.writeFlagged x p).reg q).toNat =
      if q = flagReg then (if p.2 then 1 else 0) else if q = x then p.1.toNat else (s.reg q).toNat := by
  simp only [State.writeFlagged_reg, apply_ite BitVec.toNat]
  rfl

/-- The registers as numbers after a subtraction of two bytes (R158, R160, R162). -/
theorem State.writeFlagged_subNotBorrow_reg (s : State) (x q : Reg) (a b : Byte) :
    (((s.writeFlagged x (subNotBorrow a b)).reg q).toNat : Int) =
      if q = flagReg then (if a.toNat ≥ b.toNat then 1 else 0)
      else if q = x then ((a.toNat : Int) - b.toNat) % 256 else (s.reg q).toNat := by
  simp only [State.writeFlagged_reg_toNat, subNotBorrow_snd, decide_eq_true_eq, ← checkedSub_fst_toNat]
  push_cast
  rfl

/-! ## The shift source (R22, R159, R161) -/

/-- Checking one register twice is checking it once. -/
theorem checkRegs_self {i : Instr} {x : Reg} {s : State} {k : Result} :
    checkRegs i x x s k = checkReg i x s k := by
  cases hx : s.allows x
  · rw [checkRegs_of_not_allows (by simp [hx]), checkReg_of_not_allows hx]
  · rw [checkRegs_of_allows hx hx, checkReg_of_allows hx]

/-- A shift checks x and the register SHIFT_SOURCE names, and goes on with the latter. -/
theorem checkReg_withShiftSource {i : Instr} {x y src : Reg} {s : State} {k : Byte → Result}
    (hsrc : s.cfg.shiftSource = .vy ∧ src = y ∨ s.cfg.shiftSource = .vx ∧ src = x) :
    checkReg i x s (withShiftSource i x y s k) = checkRegs i x src s (k (s.reg src)) := by
  obtain ⟨h, rfl⟩ | ⟨h, rfl⟩ := hsrc
  · simp [withShiftSource, h, checkRegs]
  · simp [withShiftSource, h, checkRegs_self]

theorem exec_shr (x y : Reg) (s : State) :
    exec (.shr x y) s = checkReg (.shr x y) x s
      (withShiftSource (.shr x y) x y s fun b => .next (s.writeFlagged x (shiftRightOne b))) := rfl

theorem exec_shl (x y : Reg) (s : State) :
    exec (.shl x y) s = checkReg (.shl x y) x s
      (withShiftSource (.shl x y) x y s fun b => .next (s.writeFlagged x (shiftLeftOne b))) := rfl

/-! ## The instructions -/

/-- Settles O20: past the register checks both loads are one write of Vx. -/
theorem loadsWriteOneRegister : Obligations.LoadsWriteOneRegister := by
  refine ⟨fun x y kk => ⟨decodeOfEncode (.ldImm x kk) rfl, decodeOfEncode (.ldReg x y) rfl⟩,
    fun x kk s => ⟨fun hx => ?byte, checkReg_of_not_allows⟩,
    fun x y s => ⟨fun hx hy => ?reg, checkRegs_of_not_allows⟩⟩
  case byte => exact ⟨s.setReg x kk, checkReg_of_allows hx, fun r => State.setReg_reg s x r kk, rfl⟩
  case reg =>
    exact ⟨s.setReg x (s.reg y), checkRegs_of_allows hx hy, fun r => State.setReg_reg s x r (s.reg y), rfl⟩

/-- Settles O22: past the register check it is one write of Vx, with the wrapped sum. -/
theorem addByteWritesNoFlag : Obligations.AddByteWritesNoFlag := by
  refine ⟨fun x kk => decodeOfEncode (.addImm x kk) rfl, fun x kk s => ⟨fun hx => ?_, checkReg_of_not_allows⟩⟩
  refine ⟨s.setReg x (checkedAdd (s.reg x) kk).1, checkReg_of_allows hx, fun r => ?_, rfl⟩
  rw [State.setReg_reg, apply_ite BitVec.toNat, checkedAdd_fst_toNat]

/-- Settles O23: past the register checks the three operations are one write, differing in the byte written alone. -/
theorem logicOperations : Obligations.LogicOperations := by
  refine ⟨fun x y => ⟨decodeOfEncode (.orReg x y) rfl, decodeOfEncode (.andReg x y) rfl, decodeOfEncode (.xorReg x y) rfl⟩,
    fun x y s => ⟨fun hx hy => ⟨?or, ?and, ?xor⟩,
      fun h => ⟨checkRegs_of_not_allows h, checkRegs_of_not_allows h, checkRegs_of_not_allows h⟩⟩⟩
  case or | and | xor =>
    exact ⟨_, checkRegs_of_allows hx hy, State.writeLogic_frame s x _, fun r => State.writeLogic_reg s x r _⟩

/-- Settles O24: past the register checks it writes the checked sum, and the overflow is the flag. -/
theorem addSetsCarry : Obligations.AddSetsCarry := by
  refine ⟨fun x y => decodeOfEncode (.addReg x y) rfl, fun x y s => ⟨fun hx hy => ?_, checkRegs_of_not_allows⟩⟩
  refine ⟨_, checkRegs_of_allows hx hy, fun r => ?_, State.writeFlagged_frame ..⟩
  simp only [State.writeFlagged_reg_toNat, checkedAdd_fst_toNat, checkedAdd_snd, decide_eq_true_eq]
  rfl

/-- Settles O25: past the register checks SUB and SUBN are one subtraction, with the operands exchanged. -/
theorem subtractionsSetNotBorrow : Obligations.SubtractionsSetNotBorrow := by
  refine ⟨fun x y => ⟨decodeOfEncode (.sub x y) rfl, decodeOfEncode (.subn x y) rfl⟩,
    fun x y s => ⟨fun hx hy => ⟨?sub, ?subn⟩, fun h => ⟨checkRegs_of_not_allows h, checkRegs_of_not_allows h⟩⟩⟩
  case sub | subn =>
    exact ⟨_, checkRegs_of_allows hx hy, State.writeFlagged_frame .., fun r => State.writeFlagged_subNotBorrow_reg ..⟩

/-- Settles O26: a shift is the two register checks, on x and the source, and then one write with its flag. -/
theorem shiftsSetBitShiftedOut : Obligations.ShiftsSetBitShiftedOut := by
  refine ⟨fun x y => ⟨decodeOfEncode (.shr x y) rfl, decodeOfEncode (.shl x y) rfl⟩, fun x y src s hsrc => ?_⟩
  rw [exec_shr, exec_shl, checkReg_withShiftSource hsrc, checkReg_withShiftSource hsrc]
  refine ⟨fun hx hs => ⟨?shr, ?shl⟩, fun h => ⟨checkRegs_of_not_allows h, checkRegs_of_not_allows h⟩⟩
  case shr =>
    refine ⟨_, checkRegs_of_allows hx hs, State.writeFlagged_frame .., fun r => ?_⟩
    rw [State.writeFlagged_reg_toNat, ite_shiftRightOne_snd, shiftRightOne_fst_toNat]
    rfl
  case shl =>
    refine ⟨_, checkRegs_of_allows hx hs, State.writeFlagged_frame .., fun r => ?_⟩
    rw [State.writeFlagged_reg_toNat, ite_shiftLeftOne_snd, shiftLeftOne_fst_toNat]
    rfl

/-- Settles O27: past the register check it is one write of Vx, and the draw is counted. -/
theorem randomUnderMask : Obligations.RandomUnderMask := by
  refine ⟨fun x kk => decodeOfEncode (.rnd x kk) rfl, fun x kk s => ⟨fun hx => ?_, checkReg_of_not_allows⟩⟩
  exact ⟨(s.setReg x (s.rndByte &&& kk)).countDraw, checkReg_of_allows hx,
    fun r => State.setReg_reg s x r (s.rndByte &&& kk), rfl⟩

end Sys2Proof.Machine
end

section
/-! PROOFS. The statements of 43_index_memory.md: the index register and the transfers between registers and memory. What the
font address and the block transfers give is said first. -/

namespace Sys2Proof.Machine

open Sys2Proof

/-! ## The font address (R192) -/

section
variable {i : Instr} {d : Byte} {s : State} {k : Addr → Result}

/-- A digit's glyph is found whatever FONT_DIGIT_POLICY is. -/
theorem withFontAddr_of_le (hd : d.toNat ≤ 15) : withFontAddr i d s k = k (fontAddr d.toNat) :=
  if_pos hd

/-- Above 15, under FONT_DIGIT_POLICY = Fault, the instruction stops with the value. -/
theorem withFontAddr_of_fault (hd : d.toNat > 15) (hp : s.cfg.fontDigitPolicy = .fault) :
    withFontAddr i d s k = .fault (.fontDigitOutOfRange s.instrAddr (encode i) d) := by
  simp [withFontAddr, hd.not_ge, hp, raise]

/-- Above 15, under FONT_DIGIT_POLICY = Unmasked, the value counts as it is. -/
theorem withFontAddr_of_unmasked (hd : d.toNat > 15) (hp : s.cfg.fontDigitPolicy = .unmasked) :
    withFontAddr i d s k = k (fontAddr d.toNat) := by
  simp [withFontAddr, hd.not_ge, hp]

/-- Above 15, under FONT_DIGIT_POLICY = LowNibble, the low nibble counts. -/
theorem withFontAddr_of_lowNibble (hd : d.toNat > 15) (hp : s.cfg.fontDigitPolicy = .lowNibble) :
    withFontAddr i d s k = k (fontAddr (d.toNat % 16)) := by
  simp [withFontAddr, hd.not_ge, hp, lowNibble_val]

end

theorem exec_ldF {x : Reg} {s : State} (hx : s.allows x = true) :
    exec (.ldF x) s = withFontAddr (.ldF x) (s.reg x) s fun a => .next (s.setI a) :=
  checkReg_of_allows hx

/-! ## The block transfers (R193 to R195) -/

/-- The three digits of a byte as numbers: each is below 256, so none is cut off. -/
theorem bcdDigits_map_toNat (d : Byte) :
    (bcdDigits d).map BitVec.toNat = [d.toNat / 100, d.toNat / 10 % 10, d.toNat % 10] := by
  have hlt := d.isLt
  simp only [bcdDigits, List.map_cons, List.map_nil, BitVec.toNat_ofNat, List.cons.injEq, and_true]
  omega

/-- The k-th of the three bytes from `a` on, after the digits of `d` are stored there, is the k-th digit. -/
theorem memRead_memWriteBytes_bcdDigits (m : Memory) (a : Addr) (d : Byte) {k : Nat} (hk : k < 3) :
    (memRead (memWriteBytes m a (bcdDigits d)) (addrPlus a k)).toNat =
      [d.toNat / 100, d.toNat / 10 % 10, d.toNat % 10][k] := by
  have hlen : (bcdDigits d).length ≤ 4096 := by simp
  have hlt : k < (bcdDigits d).length := by rwa [bcdDigits_length]
  rw [memRead_memWriteBytes_inside m a (bcdDigits d) hlen k hlt,
    ← List.getElem_map BitVec.toNat (h := by rwa [List.length_map])]
  simp only [bcdDigits_map_toNat]

/-- After V0 to Vx are stored from `a` on, the byte at `mask12(a + k)` is Vk. -/
theorem memRead_memWriteBytes_regsUpTo (m : Memory) (a : Addr) (s : State) {x k : Reg} (hk : k ≤ x) :
    memRead (memWriteBytes m a (s.regsUpTo x)) (addrPlus a k.val) = s.reg k := by
  have hlen : (s.regsUpTo x).length ≤ 4096 := by rw [regsUpTo_length]; omega
  have hlt : k.val < (s.regsUpTo x).length := by rw [regsUpTo_length]; exact Nat.lt_succ_of_le hk
  rw [memRead_memWriteBytes_inside m a (s.regsUpTo x) hlen k.val hlt, regsUpTo_getElem]

/-- Storing V0 to Vx from `a` on leaves every byte at none of the addresses `mask12(a + k)`. -/
theorem memRead_memWriteBytes_regsUpTo_outside (m : Memory) {a a' : Addr} (s : State) {x : Reg}
    (h : ∀ k : Reg, k ≤ x → a' ≠ addrPlus a k.val) :
    memRead (memWriteBytes m a (s.regsUpTo x)) a' = memRead m a' := by
  refine memRead_memWriteBytes_outside m a a' (s.regsUpTo x) fun k hk => ?_
  rw [regsUpTo_length] at hk
  exact h ⟨k, by omega⟩ (Nat.le_of_lt_succ hk)

/-! ## The instructions -/

/-- Settles O28: LDI is one write of I, and so, past the register check, is ADD I,Vx. -/
theorem indexLoadAndAdd : Obligations.IndexLoadAndAdd :=
  ⟨fun nnn => decodeOfEncode (.ldI nnn) rfl, fun x => decodeOfEncode (.addI x) rfl, fun _ _ => rfl,
    fun _ _ => ⟨checkReg_of_allows, checkReg_of_not_allows⟩⟩

/-- Settles O29, by whether Vx is a digit, and where it is none by FONT_DIGIT_POLICY. -/
theorem fontAddressOfDigit : Obligations.FontAddressOfDigit := by
  refine ⟨fun x => decodeOfEncode (.ldF x) rfl, fun x s =>
    ⟨fun hx hd => ?digit, fun hx hd => ⟨fun hp => ?fault, fun hp => ?unmasked, fun hp => ?lowNibble⟩,
      checkReg_of_not_allows⟩⟩
  case digit => rw [exec_ldF hx, withFontAddr_of_le hd]; rfl
  case fault => rw [exec_ldF hx, withFontAddr_of_fault hd hp]
  case unmasked => rw [exec_ldF hx, withFontAddr_of_unmasked hd hp]; rfl
  case lowNibble => rw [exec_ldF hx, withFontAddr_of_lowNibble hd hp]; rfl

/-- Settles O30: past the register check it is one block write of the three digits. -/
theorem decimalDigitsStored : Obligations.DecimalDigitsStored := by
  refine ⟨fun x => decodeOfEncode (.ldB x) rfl, fun x s => ⟨fun hx => ?_, checkReg_of_not_allows⟩⟩
  have hdigit {k : Nat} (hk : k < 3) := memRead_memWriteBytes_bcdDigits s.mem s.i (s.reg x) hk
  refine ⟨s.setMem (memWriteBytes s.mem s.i (bcdDigits (s.reg x))), checkReg_of_allows hx, rfl, ?hundreds,
    hdigit (k := 1) (by decide), hdigit (k := 2) (by decide), fun a h0 h1 h2 => ?outside⟩
  case hundreds =>
    have h0 := hdigit (k := 0) (by decide)
    rwa [addrPlus_zero] at h0
  case outside =>
    refine memRead_memWriteBytes_outside s.mem s.i a (bcdDigits (s.reg x)) fun k hk => ?_
    rw [bcdDigits_length] at hk
    interval_cases k
    · rwa [addrPlus_zero]
    · exact h1
    · exact h2

/-- Settles O31: past the register check it is one block write of V0 to Vx and one write of I. -/
theorem registersStored : Obligations.RegistersStored := by
  refine ⟨fun x => decodeOfEncode (.stRegs x) rfl, fun x s => ⟨fun hx => ?_, checkReg_of_not_allows⟩⟩
  exact ⟨_, checkReg_of_allows hx, rfl, fun k hk => memRead_memWriteBytes_regsUpTo s.mem s.i s hk,
    fun a ha => memRead_memWriteBytes_regsUpTo_outside s.mem s ha⟩

/-- Settles O32: past the register check it is one block load of V0 to Vx and one write of I. -/
theorem registersLoaded : Obligations.RegistersLoaded := by
  refine ⟨fun x => decodeOfEncode (.ldRegs x) rfl, fun x s => ⟨fun hx => ?_, checkReg_of_not_allows⟩⟩
  exact ⟨_, checkReg_of_allows hx, rfl, fun k => State.loadRegs_reg s x k⟩

end Sys2Proof.Machine
end

section
/-! PROOFS. The statements of 44_display.md: the target rule, CLS and DRW. The targets of one sprite are pairwise different,
so the plots of DRW, made one after another, are read off the framebuffer of before, all at once. -/

namespace Sys2Proof.Machine

open Sys2Proof Sys2Proof.Safety

/-! ## The target rule (R223 to R225) -/

section
variable {edge : Option DrawEdge} {cx cy : Nat}

/-- On the screen the target is the coordinates themselves, whatever the policy. -/
theorem target_of_onScreen (h : cx < 64 ∧ cy < 32) : target edge cx cy = some (⟨cy, h.2⟩, ⟨cx, h.1⟩) :=
  dif_pos h

theorem target_clip_of_offScreen (h : ¬ (cx < 64 ∧ cy < 32)) : target (some .clip) cx cy = none :=
  dif_neg h

/-- Whatever the policy, a pixel that is drawn at all is the one Wrap reduces the coordinates to. -/
theorem target_eq_some {p : Fin 32 × Fin 64} (h : target edge cx cy = some p) :
    p = (Fin.ofNat 32 cy, Fin.ofNat 64 cx) := by
  by_cases hon : cx < 64 ∧ cy < 32
  · obtain ⟨hx, hy⟩ := hon
    rw [target_of_onScreen ⟨hx, hy⟩] at h
    obtain rfl := Option.some.inj h
    exact Prod.ext (Fin.ext (Nat.mod_eq_of_lt hy).symm) (Fin.ext (Nat.mod_eq_of_lt hx).symm)
  · rw [target, dif_neg hon] at h
    split at h
    · exact (Option.some.inj h).symm
    · cases h

end

/-- Under Wrap no pixel is dropped. -/
theorem target_wrap (cx cy : Nat) : target (some .wrap) cx cy = some (Fin.ofNat 32 cy, Fin.ofNat 64 cx) := by
  have hsome : (target (some .wrap) cx cy).isSome := by
    by_cases hon : cx < 64 ∧ cy < 32 <;> simp [target, hon]
  obtain ⟨p, hp⟩ := Option.isSome_iff_exists.mp hsome
  rw [hp, target_eq_some hp]

/-- Settles O34, from what the target is on the screen, under Wrap, and off the screen under Clip. -/
theorem targetPixel : Obligations.TargetPixel := fun cx cy =>
  ⟨⟨_, target_wrap cx cy, rfl, rfl⟩, fun hon => ⟨_, target_of_onScreen hon, rfl, rfl⟩, target_clip_of_offScreen,
    rfl⟩

/-! ## The targets of one sprite are pairwise different -/

/-- A row has 8 columns, fewer than the 64 after which a column comes again. -/
theorem nodup_rowTargets (edge : Option DrawEdge) (px cy : Nat) (b : Byte) : (rowTargets edge px cy b).Nodup := by
  refine List.nodup_range.filterMap fun col col' p h h' => ?_
  simp only [Option.mem_def, Option.ite_none_right_eq_some] at h h'
  obtain ⟨hb, ht⟩ := h
  obtain ⟨hb', ht'⟩ := h'
  have hcol := BitVec.lt_of_getMsbD hb
  have hcol' := BitVec.lt_of_getMsbD hb'
  have hmod : (px + col) % 64 = (px + col') % 64 :=
    congrArg (·.2.val) ((target_eq_some ht).symm.trans (target_eq_some ht'))
  omega

/-- A sprite of at most 32 rows meets no pixel twice: its rows lie in different rows of the screen. -/
theorem nodup_spriteTargets (edge : Option DrawEdge) (px py : Nat) {bytes : List Byte} (hlen : bytes.length ≤ 32) :
    (spriteTargets edge px py bytes).Nodup := by
  induction bytes generalizing py with
  | nil => exact List.nodup_nil
  | cons b bs ih =>
    rw [List.length_cons] at hlen
    refine (nodup_rowTargets edge px py b).append (ih (py + 1) (by omega)) fun p hrow hrest => ?_
    obtain ⟨col, -, -, ht⟩ := mem_rowTargets.mp hrow
    obtain ⟨row, hlt, col', -, -, ht'⟩ := mem_spriteTargets.mp hrest
    have hmod : py % 32 = (py + 1 + row) % 32 :=
      congrArg (·.1.val) ((target_eq_some ht).symm.trans (target_eq_some ht'))
    omega

/-! ## A sequence of plots at once (R222, R226) -/

/-- Plots of different pixels invert exactly the pixels of the list. -/
theorem pixel_foldl_plot {l : List (Fin 32 × Fin 64)} (hl : l.Nodup) (acc : Framebuffer × Bool) (y : Fin 32) (x : Fin 64) :
    pixel (l.foldl plot acc).1 y x = (pixel acc.1 y x ^^ decide ((y, x) ∈ l)) := by
  induction l generalizing acc with
  | nil => simp
  | cons p l ih =>
    obtain ⟨hp, hl⟩ := List.nodup_cons.mp hl
    rw [List.foldl_cons, ih hl, plot, pixel_flipPixel]
    by_cases heq : (y, x) = p
    · subst heq
      simp [hp]
    · have hne : ¬ (y = p.1 ∧ x = p.2) := fun h => heq (Prod.ext h.1 h.2)
      simp [heq, hne]

/-- Plots of different pixels collide exactly if a pixel of the list was 1 before all of them. -/
theorem foldl_plot_snd {l : List (Fin 32 × Fin 64)} (hl : l.Nodup) (acc : Framebuffer × Bool) :
    (l.foldl plot acc).2 = true ↔ acc.2 = true ∨ ∃ p ∈ l, pixel acc.1 p.1 p.2 = true := by
  induction l generalizing acc with
  | nil => simp
  | cons p l ih =>
    obtain ⟨hp, hl⟩ := List.nodup_cons.mp hl
    have hsame : ∀ q ∈ l, pixel (plot acc p).1 q.1 q.2 = pixel acc.1 q.1 q.2 := by
      intro q hq
      have hne : ¬ (q.1 = p.1 ∧ q.2 = p.2) := fun h => hp (Prod.ext h.1 h.2 ▸ hq)
      simp [plot, pixel_flipPixel, hne]
    rw [List.foldl_cons, ih hl, List.exists_mem_cons_iff, ← or_assoc]
    refine or_congr (by simp [plot]) (exists_congr fun q => and_congr_right fun hq => ?_)
    rw [hsame q hq]

/-! ## What DRW draws -/

section
variable {s : State} {x y : Reg} {n : Nibble}

theorem State.spriteBytes_length (s : State) (n : Nibble) : (s.spriteBytes n).length = n.toNat :=
  memReadBytes_length ..

theorem State.spriteBytes_getElem (s : State) (n : Nibble) (row : Nat) (h : row < (s.spriteBytes n).length) :
    (s.spriteBytes n)[row] = memRead s.mem (mask12 (s.i.toNat + row)) :=
  memReadBytes_getElem s.mem s.i n.toNat row h

/-- The pixels a sprite lands on are the targets that the drawing goes through; column `col` is bit `7 - col` (R222). -/
theorem spriteHits_iff_mem {ty : Fin 32} {tx : Fin 64} :
    spriteHits s x y n ty tx ↔
      (ty, tx) ∈ spriteTargets s.cfg.drawEdge (s.reg x).toNat (s.reg y).toNat (s.spriteBytes n) := by
  simp only [mem_spriteTargets, State.spriteBytes_getElem, State.spriteBytes_length, exists_prop]
  refine exists_congr fun row => and_congr_right fun _ => exists_congr fun col => and_congr_right fun hcol => ?_
  simp [BitVec.getMsbD, hcol]

/-- A sprite has at most 15 rows, so it meets no pixel twice. -/
theorem nodup_spriteTargets_spriteBytes (s : State) (x y : Reg) (n : Nibble) :
    (spriteTargets s.cfg.drawEdge (s.reg x).toNat (s.reg y).toNat (s.spriteBytes n)).Nodup :=
  nodup_spriteTargets _ _ _ (by rw [State.spriteBytes_length]; omega)

/-- A pixel the sprite lands on is inverted. -/
theorem pixel_drawn_of_hit {ty : Fin 32} {tx : Fin 64} (h : spriteHits s x y n ty tx) :
    pixel (s.drawn x y n).1 ty tx = !pixel s.fb ty tx := by
  rw [State.drawn, drawSprite, pixel_foldl_plot (nodup_spriteTargets_spriteBytes s x y n)]
  simp [spriteHits_iff_mem.mp h]

/-- A pixel the sprite does not land on is kept. -/
theorem pixel_drawn_of_miss {ty : Fin 32} {tx : Fin 64} (h : ¬ spriteHits s x y n ty tx) :
    pixel (s.drawn x y n).1 ty tx = pixel s.fb ty tx := by
  rw [State.drawn, drawSprite, pixel_foldl_plot (nodup_spriteTargets_spriteBytes s x y n)]
  simp [mt spriteHits_iff_mem.mpr h]

/-- The collision: the sprite lands on a pixel that was 1 (R226). -/
theorem drawn_collision_iff :
    (s.drawn x y n).2 = true ↔ ∃ ty tx, spriteHits s x y n ty tx ∧ pixel s.fb ty tx = true := by
  rw [State.drawn, drawSprite, foldl_plot_snd (nodup_spriteTargets_spriteBytes s x y n)]
  simp [spriteHits_iff_mem]

/-- Where a sprite lands depends neither on the framebuffer nor, at registers other than VF, on VF. -/
theorem spriteHits_setFb_setFlag (hx : x ≠ flagReg) (hy : y ≠ flagReg) (fb : Framebuffer) (f : Bool) (ty : Fin 32)
    (tx : Fin 64) : spriteHits ((s.setFb fb).setFlag f) x y n ty tx ↔ spriteHits s x y n ty tx := by
  simp [spriteHits, State.setFlag_reg, hx, hy]

end

/-! ## The flag as a byte -/

theorem State.setFlag_reg_flagReg_eq_one (s : State) (f : Bool) : (s.setFlag f).reg flagReg = 1 ↔ f = true := by
  rw [State.setFlag_reg, if_pos rfl]
  cases f <;> simp

theorem State.setFlag_reg_flagReg_eq_zero (s : State) (f : Bool) : (s.setFlag f).reg flagReg = 0 ↔ f = false := by
  rw [State.setFlag_reg, if_pos rfl]
  cases f <;> simp

/-! ## The instructions -/

theorem exec_cls (s : State) : exec .cls s = .next (s.setFb clearedFb) := rfl

theorem exec_drw_of_allows {x y : Reg} (n : Nibble) {s : State} (hx : s.allows x = true) (hy : s.allows y = true) :
    exec (.drw x y n) s = .next ((s.setFb (s.drawn x y n).1).setFlag (s.drawn x y n).2) :=
  checkRegs_of_allows hx hy

/-- DRW answers a next state only by drawing and writing the collision to VF. -/
theorem exec_drw_next {x y : Reg} {n : Nibble} {s t : State} (h : exec (.drw x y n) s = .next t) :
    t = (s.setFb (s.drawn x y n).1).setFlag (s.drawn x y n).2 := by
  obtain ⟨-, -, ⟨⟩⟩ := checkRegs_next.mp h
  rfl

/-- After DRW VF is 1 exactly if there was a collision. -/
theorem exec_drw_reg_flagReg_eq_one {x y : Reg} {n : Nibble} {s t : State} (h : exec (.drw x y n) s = .next t) :
    t.reg flagReg = 1 ↔ ∃ ty tx, spriteHits s x y n ty tx ∧ pixel s.fb ty tx = true := by
  rw [exec_drw_next h, State.setFlag_reg_flagReg_eq_one, drawn_collision_iff]

/-- After DRW VF is 0 exactly if there was no collision. -/
theorem exec_drw_reg_flagReg_eq_zero {x y : Reg} {n : Nibble} {s t : State} (h : exec (.drw x y n) s = .next t) :
    t.reg flagReg = 0 ↔ ¬ ∃ ty tx, spriteHits s x y n ty tx ∧ pixel s.fb ty tx = true := by
  rw [exec_drw_next h, State.setFlag_reg_flagReg_eq_zero, ← drawn_collision_iff, Bool.not_eq_true]

/-- Settles O33: CLS is one write of the framebuffer. -/
theorem clearScreen : Obligations.ClearScreen :=
  ⟨decodeOfEncode .cls rfl, fun s => ⟨_, exec_cls s, rfl, pixel_clearedFb⟩⟩

/-- Settles O35: past the register checks DRW writes the drawn framebuffer and the collision, and the targets it goes through
one by one are pairwise different. -/
theorem drawFlipsSpritePixels : Obligations.DrawFlipsSpritePixels := by
  refine ⟨fun x y n hn => decodeOfEncode (.drw x y n) (by simpa [Instr.wf] using hn),
    fun x y n s => ⟨fun hx hy => ?_, checkRegs_of_not_allows⟩⟩
  have hexec := exec_drw_of_allows n hx hy
  refine ⟨_, hexec, rfl, fun ty tx => ⟨pixel_drawn_of_hit, pixel_drawn_of_miss⟩, fun r hr => ?other,
    (exec_drw_reg_flagReg_eq_one hexec).mpr, (exec_drw_reg_flagReg_eq_zero hexec).mpr⟩
  case other => exact State.setReg_reg_of_ne _ _ hr

/-- Drawing a sprite again, at registers other than VF, restores the framebuffer of before the first time (R227). -/
theorem drawn_drawn {x y : Reg} (n : Nibble) (s : State) (hx : x ≠ flagReg) (hy : y ≠ flagReg) :
    (((s.setFb (s.drawn x y n).1).setFlag (s.drawn x y n).2).drawn x y n).1 = s.fb := by
  refine framebuffer_ext fun ty tx => ?_
  by_cases hhit : spriteHits s x y n ty tx
  · rw [pixel_drawn_of_hit ((spriteHits_setFb_setFlag hx hy ..).mpr hhit)]
    simp [pixel_drawn_of_hit hhit]
  · rw [pixel_drawn_of_miss (mt (spriteHits_setFb_setFlag hx hy ..).mp hhit)]
    simp [pixel_drawn_of_miss hhit]

/-- Settles O36: a second DRW lands on the same pixels, and finds each of them inverted; after CLS it finds no pixel that
is 1. -/
theorem drawTwiceRestores : Obligations.DrawTwiceRestores := by
  refine ⟨fun x y n s t u hx hy hfirst hsecond => ?twice, fun x y n s t u hclear hdraw => ?cleared⟩
  case twice =>
    obtain rfl := exec_drw_next hfirst
    refine ⟨by rw [exec_drw_next hsecond]; exact drawn_drawn n s hx hy,
      (exec_drw_reg_flagReg_eq_one hsecond).trans ?_⟩
    refine exists_congr fun ty => exists_congr fun tx => ?_
    rw [spriteHits_setFb_setFlag hx hy]
    refine and_congr_right fun hhit => ?_
    simp [pixel_drawn_of_hit hhit]
  case cleared =>
    cases hclear
    refine (exec_drw_reg_flagReg_eq_zero hdraw).mpr ?_
    simp

end Sys2Proof.Machine
end

section
/-! PROOFS. The statements of 45_timers_keys.md: the timers, the skips on a key and the key wait. What the tick, the key index
and the lowest pressed key give is said first. -/

namespace Sys2Proof.Machine

open Sys2Proof

/-! ## The tick (R250) -/

/-- One tick of one timer as a number: down by one, floored at 0 as subtraction is. -/
theorem timerTick_toNat (b : Byte) : (timerTick b).toNat = b.toNat - 1 := by
  by_cases hb : b = 0
  · simp [timerTick, hb]
  · have hle : (1 : Byte) ≤ b := by bv_omega
    rw [timerTick, if_neg hb, BitVec.toNat_sub_of_le hle]
    rfl

section
variable {s : State}

theorem tick_of_no_fault (hf : s.fault = none) : tick s = { s with dt := timerTick s.dt, st := timerTick s.st } := by
  simp [tick, hf]

/-- A recorded fault stops the timers (R281). -/
theorem tick_of_fault (hf : s.fault ≠ none) : tick s = s := by
  obtain ⟨r, hr⟩ := Option.ne_none_iff_exists'.mp hf
  simp [tick, hr]

end

/-- Settles O44: a tick is one tick of each timer, or, after a fault, nothing. -/
theorem timersTick : Obligations.TimersTick := by
  refine fun s => ⟨fun hf => ?ticks, fun hf => ?stopped, decide_eq_true_iff⟩
  case ticks =>
    exact ⟨{ s with dt := timerTick s.dt, st := timerTick s.st }, congrArg _ (tick_of_no_fault hf), rfl,
      timerTick_toNat s.dt, timerTick_toNat s.st⟩
  case stopped => exact congrArg _ (tick_of_fault hf)

/-! ## The timer loads (R252 to R254) -/

/-- Settles O37: past the register check each load is one write, of Vx or of a timer. -/
theorem timerLoads : Obligations.TimerLoads := by
  refine ⟨fun x => ⟨decodeOfEncode (.ldFromDT x) rfl, decodeOfEncode (.ldDT x) rfl, decodeOfEncode (.ldST x) rfl⟩,
    fun x s => ⟨fun hx => ⟨?fromDT, checkReg_of_allows hx, checkReg_of_allows hx⟩,
      fun hx => ⟨checkReg_of_not_allows hx, checkReg_of_not_allows hx, checkReg_of_not_allows hx⟩⟩⟩
  case fromDT => exact ⟨s.setReg x s.dt, checkReg_of_allows hx, fun r => State.setReg_reg s x r s.dt, rfl⟩

/-! ## The key index (R260) -/

section
variable {i : Instr} {v : Byte} {s : State} {f : Key → Result}

/-- A key index, or any value under KEY_INDEX_POLICY = LowNibble, names the key of its low nibble. -/
theorem withKeyIndex_of_takes {k : Key} (hk : k.val = v.toNat % 16)
    (h : v.toNat ≤ 15 ∨ s.cfg.keyIndexPolicy = .lowNibble) : withKeyIndex i v s f = f k := by
  have htakes : s.takesKey v = true := by simpa [State.takesKey] using h
  obtain rfl : k = lowNibble v := Fin.ext hk
  exact if_pos htakes

/-- Above 15, under KEY_INDEX_POLICY = Fault, the instruction stops with the value. -/
theorem withKeyIndex_of_fault (hv : v.toNat > 15) (hp : s.cfg.keyIndexPolicy = .fault) :
    withKeyIndex i v s f = .fault (.keyIndexOutOfRange s.instrAddr (encode i) v) := by
  simp [withKeyIndex, State.takesKey, hv.not_ge, hp, raise]

end

/-! ## The skips on a key (R255, R256) -/

section
variable {x : Reg} {s : State}

theorem exec_skp (hx : s.allows x = true) :
    exec (.skp x) s = withKeyIndex (.skp x) (s.reg x) s fun k => .next (s.skipIf (s.keyDown k)) :=
  checkReg_of_allows hx

theorem exec_sknp (hx : s.allows x = true) :
    exec (.sknp x) s = withKeyIndex (.sknp x) (s.reg x) s fun k => .next (s.skipIf (!s.keyDown k)) :=
  checkReg_of_allows hx

end

/-- A skip moves pc alone, by 2 and wrapping (R27). -/
theorem State.skipIf_eq (s : State) (c : Bool) :
    s.skipIf c = { s with pc := if c = true then mask12 (s.pc.toNat + 2) else s.pc } := by
  cases c <;> rfl

/-- A skip on the negated condition moves pc alone, with the two outcomes exchanged. -/
theorem State.skipIf_not (s : State) (c : Bool) :
    s.skipIf (!c) = { s with pc := if c = true then s.pc else mask12 (s.pc.toNat + 2) } := by
  cases c <;> rfl

/-- Settles O38: past the register check, by what KEY_INDEX_POLICY makes of Vx, both are a skip on the key's flag. -/
theorem skipsOnKey : Obligations.SkipsOnKey := by
  refine ⟨fun x => ⟨decodeOfEncode (.skp x) rfl, decodeOfEncode (.sknp x) rfl⟩,
    fun x s => ⟨fun k hx hk htakes => ⟨?skp, ?sknp⟩, fun hx hv hp => ⟨?skpFault, ?sknpFault⟩,
      fun hx => ⟨checkReg_of_not_allows hx, checkReg_of_not_allows hx⟩⟩⟩
  case skp => rw [exec_skp hx, withKeyIndex_of_takes hk htakes, State.skipIf_eq]; rfl
  case sknp => rw [exec_sknp hx, withKeyIndex_of_takes hk htakes, State.skipIf_not]; rfl
  case skpFault => rw [exec_skp hx, withKeyIndex_of_fault hv hp]
  case sknpFault => rw [exec_sknp hx, withKeyIndex_of_fault hv hp]

/-! ## The key load and the wait (R257, R258) -/

section
variable {x : Reg} {s : State}

theorem exec_ldK_of_pressed {b : Byte} (hx : s.allows x = true) (hb : s.lowestPressed = some b) :
    exec (.ldK x) s = .next (s.setReg x b) := by
  rw [exec, execLdK, checkReg_of_allows hx, hb]

theorem exec_ldK_of_none_pressed (hx : s.allows x = true) (hnone : s.lowestPressed = none) :
    exec (.ldK x) s = .next (s.setExec (.waitingForKey x)) := by
  rw [exec, execLdK, checkReg_of_allows hx, hnone]

/-- A waiting machine without a fault resolves its wait and fetches nothing (R103, R258). -/
theorem step_of_waiting (hf : s.fault = none) (he : s.execState = .waitingForKey x) : step s = resolveKeyWait x s := by
  simp [step, runCycle, hf, he]

end

/-- The registers as numbers after the index of a key is loaded: it is below 16, so the byte holds it. -/
theorem State.setReg_key_reg_toNat (s : State) (x r : Reg) (k : Key) :
    ((s.setReg x (BitVec.ofNat 8 k.val)).reg r).toNat = if r = x then k.val else (s.reg r).toNat := by
  have hk : k.val % 2 ^ 8 = k.val := Nat.mod_eq_of_lt (k.isLt.trans (by decide))
  rw [State.setReg_reg, apply_ite BitVec.toNat, BitVec.toNat_ofNat, hk]

/-- Settles O39, by whether some key is the lowest one pressed. -/
theorem keyLoadOrWait : Obligations.KeyLoadOrWait := by
  refine ⟨fun x => decodeOfEncode (.ldK x) rfl, fun x s =>
    ⟨fun k hx hk hlow => ?pressed, fun hx hnone => ?waits, checkReg_of_not_allows⟩⟩
  case pressed =>
    exact ⟨_, exec_ldK_of_pressed hx (lowestPressed_some hk hlow), rfl, fun r => State.setReg_key_reg_toNat s x r k⟩
  case waits => exact exec_ldK_of_none_pressed hx (lowestPressed_none.mpr hnone)

/-- Settles O40: the step is the resolution of the wait, by whether some key is the lowest one pressed. -/
theorem waitCycle : Obligations.WaitCycle := by
  intro x s hf he
  rw [step_of_waiting hf he]
  refine ⟨fun k hk hlow => ?pressed, fun hnone => ?waits⟩
  case pressed =>
    exact ⟨_, resolveKeyWait_next.mpr (.inl ⟨_, lowestPressed_some hk hlow, rfl⟩), rfl,
      fun r => State.setReg_key_reg_toNat s x r k⟩
  case waits => exact resolveKeyWait_next.mpr (.inr ⟨lowestPressed_none.mpr hnone, rfl⟩)

end Sys2Proof.Machine
end

section
/-! PROOFS. The statements of 60_exceptions.md: how a cycle stops (R280, R282), that a fault is terminal (R281), the extended
markers (R284), the host's calls (R299, R303) and the parked machine (R304). -/

namespace Sys2Proof

/-! ## What the decoder answers where it names no instruction (R94) -/

/-- `Extended` carries the opcode that was decoded. -/
theorem eq_of_decode_extended {ext : List Pattern} {op op' : Opcode} (h : decode ext op = .extended op') : op' = op := by
  unfold decode decodeExtended at h
  split at h
  · split at h <;> cases h
    rfl
  · obtain hb | ⟨i, hb⟩ := decodeBase_cases op <;> cases hb.symm.trans h

/-- `Invalid` carries the opcode that was decoded. -/
theorem eq_of_decode_invalid {ext : List Pattern} {op op' : Opcode} (h : decode ext op = .invalid op') : op' = op := by
  unfold decode decodeExtended at h
  split at h
  · split at h <;> cases h
  · obtain hb | ⟨i, hb⟩ := decodeBase_cases op <;> cases hb.symm.trans h
    rfl

end Sys2Proof

namespace Sys2Proof.Machine

open Sys2Proof Sys2Proof.Safety

/-! ## How a cycle stops (R280, R282) -/

/-- A result that is no refusal, and that, if it is a fault, names the address `a` and the opcode `op`. -/
inductive NextOrFaultAt (a : Addr) (op : Opcode) : Result → Prop
  | next (t : State) : NextOrFaultAt a op (.next t)
  | fault {r : Fault} (haddr : r.addr = some a) (hopcode : r.opcode = some op) : NextOrFaultAt a op (.fault r)

section
variable {i : Instr} {s : State}

theorem nextOrFaultAt_checkReg {r : Reg} {k : Result} (hk : NextOrFaultAt s.instrAddr (encode i) k) :
    NextOrFaultAt s.instrAddr (encode i) (checkReg i r s k) := by
  unfold checkReg
  split
  · exact hk
  · exact .fault rfl rfl

theorem nextOrFaultAt_checkRegs {x y : Reg} {k : Result} (hk : NextOrFaultAt s.instrAddr (encode i) k) :
    NextOrFaultAt s.instrAddr (encode i) (checkRegs i x y s k) :=
  nextOrFaultAt_checkReg (nextOrFaultAt_checkReg hk)

theorem nextOrFaultAt_withShiftSource {x y : Reg} {k : Byte → Result}
    (hk : ∀ b, NextOrFaultAt s.instrAddr (encode i) (k b)) :
    NextOrFaultAt s.instrAddr (encode i) (withShiftSource i x y s k) := by
  unfold withShiftSource
  split
  · exact nextOrFaultAt_checkReg (hk _)
  · exact hk _

theorem nextOrFaultAt_withJumpOffset {x : Reg} {k : Byte → Result}
    (hk : ∀ b, NextOrFaultAt s.instrAddr (encode i) (k b)) :
    NextOrFaultAt s.instrAddr (encode i) (withJumpOffset i x s k) := by
  unfold withJumpOffset
  split
  · exact hk _
  · exact nextOrFaultAt_checkReg (hk _)

theorem nextOrFaultAt_withKeyIndex {v : Byte} {k : Key → Result}
    (hk : ∀ j, NextOrFaultAt s.instrAddr (encode i) (k j)) :
    NextOrFaultAt s.instrAddr (encode i) (withKeyIndex i v s k) := by
  unfold withKeyIndex
  split
  · exact hk _
  · exact .fault rfl rfl

theorem nextOrFaultAt_withFontAddr {d : Byte} {k : Addr → Result}
    (hk : ∀ a, NextOrFaultAt s.instrAddr (encode i) (k a)) :
    NextOrFaultAt s.instrAddr (encode i) (withFontAddr i d s k) := by
  unfold withFontAddr
  split
  · exact hk _
  · cases s.cfg.fontDigitPolicy with
    | fault => exact .fault rfl rfl
    | unmasked => exact hk _
    | lowNibble => exact hk _

theorem nextOrFaultAt_push {a : Addr} {k : State → Result}
    (hk : ∀ t, NextOrFaultAt s.instrAddr (encode i) (k t)) :
    NextOrFaultAt s.instrAddr (encode i) (push i a s k) := by
  unfold push
  split
  · exact hk _
  · exact .fault rfl rfl

theorem nextOrFaultAt_pop {k : Addr → State → Result}
    (hk : ∀ a t, NextOrFaultAt s.instrAddr (encode i) (k a t)) :
    NextOrFaultAt s.instrAddr (encode i) (pop i s k) := by
  unfold pop
  split
  · exact hk _ _
  · exact .fault rfl rfl

theorem nextOrFaultAt_executeExtended (op : Opcode) : NextOrFaultAt s.instrAddr op (executeExtended op s) := by
  unfold executeExtended
  split
  · exact .fault rfl rfl
  · exact .next s

end

/-- Every instruction answers a next state or a fault that names its own address and word: its meaning stops only in the
shared operations, and each of them raises with the instruction it is given. -/
theorem exec_nextOrFaultAt (i : Instr) (s : State) : NextOrFaultAt s.instrAddr (encode i) (exec i s) := by
  cases i
  case cls | sys | jp | ldI => exact .next _
  case ret => exact nextOrFaultAt_pop fun _ _ => .next _
  case call => exact nextOrFaultAt_push fun _ => .next _
  case jpV0 => rw [exec_jpV0]; exact nextOrFaultAt_withJumpOffset fun _ => .next _
  case seImm | sneImm | ldImm | addImm | rnd | ldFromDT | ldDT | ldST | addI | ldB | stRegs | ldRegs =>
    exact nextOrFaultAt_checkReg (.next _)
  case seReg | sneReg | ldReg | orReg | andReg | xorReg | addReg | sub | subn | drw =>
    exact nextOrFaultAt_checkRegs (.next _)
  case shr | shl => exact nextOrFaultAt_checkReg (nextOrFaultAt_withShiftSource fun _ => .next _)
  case skp | sknp => exact nextOrFaultAt_checkReg (nextOrFaultAt_withKeyIndex fun _ => .next _)
  case ldF => exact nextOrFaultAt_checkReg (nextOrFaultAt_withFontAddr fun _ => .next _)
  case ldK =>
    refine nextOrFaultAt_checkReg ?_
    split <;> exact .next _
  case ext00Cn | ext00Dn | ext00FB | ext00FC | ext00FD | ext00FE | ext00FF | extDxy0 | extFx30 | extFx75 | extFx85 =>
    exact nextOrFaultAt_executeExtended _

/-- What was decoded carries the word it was decoded from, so executing it stops with that word. -/
theorem executeDecoded_nextOrFaultAt {ext : List Pattern} {op : Opcode} {d : Decoded} (hd : decode ext op = d)
    (s : State) : NextOrFaultAt s.instrAddr op (executeDecoded d s) := by
  cases d with
  | instr i =>
    obtain rfl := encode_of_decode hd
    exact exec_nextOrFaultAt i s
  | extended op' =>
    obtain rfl := eq_of_decode_extended hd
    exact nextOrFaultAt_executeExtended op'
  | invalid op' =>
    obtain rfl := eq_of_decode_invalid hd
    exact .fault rfl rfl

/-- A step answers a next state or a fault that names pc and the opcode there: only a running machine without a fault
executes anything, and the fetch's advance leaves the instruction's address at pc. -/
theorem step_nextOrFaultAt (s : State) : NextOrFaultAt s.pc s.fetched (step s) := by
  rcases runCycle_cases s with ⟨-, h⟩ | ⟨-, -, h⟩ | ⟨x, -, -, h⟩ <;> rw [step, h]
  · exact .next s
  · simpa only [State.advance_instrAddr] using executeDecoded_nextOrFaultAt (d := s.decoded) rfl s.advance
  · unfold resolveKeyWait
    split <;> exact .next _

/-- Settles O7: a step that faults was running without a fault, and its record is the one of `step_nextOrFaultAt`. -/
theorem faultNamesFetchedInstruction : Obligations.FaultNamesFetchedInstruction := by
  refine ⟨fun s r h => ?_, fun n => ⟨rfl, rfl⟩⟩
  obtain ⟨hfault, hexec, -⟩ := step_fault_cases h
  have hnames := step_nextOrFaultAt s
  rw [h] at hnames
  cases hnames with
  | fault haddr hopcode => exact ⟨hfault, hexec, haddr, hopcode⟩

/-- Settles O9: a next state or a fault is no refusal. -/
theorem stepNeverRefuses : Obligations.StepNeverRefuses := by
  intro s q h
  have hanswers := step_nextOrFaultAt s
  rw [h] at hanswers
  cases hanswers

/-! ## After a fault (R281) -/

/-- A recorded fault stops the cycle (R103). -/
theorem step_of_fault {s : State} (hf : s.fault ≠ none) : step s = .next s := by
  obtain ⟨r, hr⟩ := Option.ne_none_iff_exists'.mp hf
  simp [step, runCycle, hr]

/-- No call of the host that answers a next state writes the fault slot. -/
theorem transact_keeps_fault {tr : Transaction} {s t : State} (h : transact tr s = .next t) : t.fault = s.fault := by
  cases tr with
  | loadProgram bytes => rw [loadProgram_next h]
  | cycle =>
    obtain ⟨-, -, hfault, -⟩ := stepLeavesHostState s t h
    exact hfault
  | tick =>
    cases h
    unfold tick
    split <;> rfl
  | press k | release k =>
    obtain ⟨j, rfl⟩ := hostKey_next h
    rfl

/-- Settles O8: the record is written by `recordFault` alone, and past it cycle and tick do nothing. -/
theorem faultIsTerminal : Obligations.FaultIsTerminal := by
  refine ⟨fun tr s r h => ⟨s.recordFault r, ?recorded, rfl⟩, fun s hf => ⟨step_of_fault hf, ?ticks⟩,
    fun tr s t r hf h => (transact_keeps_fault h).trans hf⟩
  case recorded => simp only [transactRecorded, h]
  case ticks => rw [transact, tick_of_fault hf]

/-! ## The extended markers (R284) -/

theorem executeExtended_of_noOp {s : State} (h : s.cfg.extBehaviour = .noOp) (op : Opcode) :
    executeExtended op s = .next s := by
  simp [executeExtended, h]

theorem executeExtended_of_fault {s : State} (h : s.cfg.extBehaviour = .fault) (op : Opcode) :
    executeExtended op s = .fault (.unimplementedExtended s.instrAddr op) := by
  simp [executeExtended, h]

/-- Each of the eleven markers is well-formed, and its meaning is R284's. -/
theorem exec_marker {n : Nibble} {x y : Reg} {i : Instr}
    (hi : i ∈ [Instr.ext00Cn n, .ext00Dn n, .ext00FB, .ext00FC, .ext00FD, .ext00FE, .ext00FF, .extDxy0 x y, .extFx30 x,
      .extFx75 x, .extFx85 x]) :
    i.wf = true ∧ ∀ s, exec i s = executeExtended (encode i) s := by
  fin_cases hi <;> exact ⟨rfl, fun _ => rfl⟩

/-- An instruction read off a marker's row executes as R284 says of the opcode. -/
theorem exec_of_markerRow {op : Opcode} {i : Instr} (h : markerRow op = some i) (s : State) :
    exec i s = executeExtended op s := by
  obtain ⟨hword, -⟩ := encode_and_wf_of_markerRow h
  rw [← hword]
  unfold markerRow at h
  iterate 11
    obtain ⟨-, ⟨⟩⟩ | ⟨-, h⟩ := ite_eq_iff.mp h
    · rfl
  cases h

/-- An opcode that an EXTENDED_SET takes behaves as R284 says, whether or not the opcode table has a row for it. -/
theorem executeDecoded_decodeExtended (op : Opcode) (s : State) :
    executeDecoded (decodeExtended op) s = executeExtended op s := by
  unfold decodeExtended
  split
  · exact exec_of_markerRow ‹_› s
  · rfl

/-- Settles O41: a marker, as any opcode the EXTENDED_SET takes, is `executeExtended` of its word, in the state after the
fetch's advance when it is a step. -/
theorem extendedMarkers : Obligations.ExtendedMarkers := by
  refine ⟨fun n x y s i hi => ?marker, fun s hf he hext => ?anyExtended⟩
  case marker =>
    obtain ⟨hwf, hexec⟩ := exec_marker hi
    rw [hexec]
    exact ⟨decodeOfEncode i hwf, fun h => executeExtended_of_noOp h _, fun h => executeExtended_of_fault h _⟩
  case anyExtended =>
    have hdecoded : s.decoded = decodeExtended s.fetched := if_pos hext
    have hstep : step s = executeExtended s.fetched s.advance := by
      rw [step_of_running hf he, hdecoded, executeDecoded_decodeExtended]
    rw [hstep]
    refine ⟨fun h => executeExtended_of_noOp (s := s.advance) h _, fun h => ?_⟩
    rw [executeExtended_of_fault (s := s.advance) h, State.advance_instrAddr]

/-! ## Key events (R299) -/

theorem hostKey_of_key (k : Key) (down : Bool) (s : State) : hostKey k.val down s = .next (setKey k down s) :=
  dif_pos k.isLt

theorem hostKey_of_gt {k : Nat} (hk : k > 15) (down : Bool) (s : State) :
    hostKey k down s = .refused (.keyOutsideInterface k) :=
  dif_neg (by omega)

/-- The flags after a key event. -/
theorem setKey_key_getElem (k j : Key) (down : Bool) (s : State) :
    (setKey k down s).key[j] = if j = k then down else s.key[j] := by
  simp only [setKey, Fin.getElem_fin, Vector.getElem_set, Fin.ext_iff, eq_comm]

/-- Settles O45: both calls are one write to the flag of the key, if there is such a key. -/
theorem pressAndRelease : Obligations.PressAndRelease := fun s =>
  ⟨fun k => ⟨setKey k true s, setKey k false s, hostKey_of_key k true s, hostKey_of_key k false s, rfl, rfl,
      fun j => ⟨setKey_key_getElem k j true s, setKey_key_getElem k j false s⟩⟩,
    fun _ hk => ⟨hostKey_of_gt hk true s, hostKey_of_gt hk false s⟩⟩

/-! ## Any order of calls (R303) -/

/-- A row of calls answers a next state only through the next state of its first call. -/
theorem transactAll_cons_next {tr : Transaction} {calls : List Transaction} {s u : State}
    (h : transactAll (tr :: calls) s = .next u) : ∃ t, transact tr s = .next t ∧ transactAll calls t = .next u := by
  unfold transactAll at h
  split at h
  · exact ⟨_, ‹_›, h⟩
  · cases h
  · cases h

/-- The invariant holds along every row of calls that starts in a state that meets it. -/
theorem transactAll_keeps_stateInv {calls : List Transaction} {s t : State} (hs : StateInv s)
    (h : transactAll calls s = .next t) : StateInv t := by
  induction calls generalizing s with
  | nil => cases h; exact hs
  | cons tr calls ih =>
    obtain ⟨s', hfirst, hrest⟩ := transactAll_cons_next h
    exact ih (transactionKeepsInvariant tr s s' hs hfirst) hrest

/-- Settles O48: the construction meets the invariant, and every call keeps it. -/
theorem everyHostRunKeepsInvariant : Obligations.EveryHostRunKeepsInvariant := by
  intro cfg init calls t hmem h
  obtain ⟨-, hconstruct⟩ := invariantAtReset
  exact transactAll_keeps_stateInv (hconstruct cfg init hmem) h

/-! ## The parked machine (R304) -/

/-- Parked is decoding a jump to pc, running and without a fault: the word at pc is then the jump's, for a decoded
instruction has the opcode as its word. -/
theorem parked_iff {s : State} :
    parked s = true ↔ s.fault = none ∧ s.execState = .running ∧ s.decoded = .instr (.jp s.pc) := by
  have hword : s.decoded = .instr (.jp s.pc) → s.fetched = selfJump s.pc := fun h => (encode_of_decode h).symm
  simp only [parked, Bool.and_eq_true, beq_iff_eq]
  tauto

/-- A cycle of a parked machine takes the jump back to its own address. -/
theorem step_of_parked {s : State} (h : parked s = true) : step s = .next { s with stage := .started } := by
  obtain ⟨hf, he, hdecoded⟩ := parked_iff.mp h
  calc step s = executeDecoded s.decoded s.advance := step_of_running hf he
    _ = .next (s.advance.setPc s.pc) := by rw [hdecoded]; rfl

/-- Settles O54: the jump undoes the fetch's advance, and being parked depends on neither the stage nor the timers. -/
theorem parkedStaysParked : Obligations.ParkedStaysParked := by
  intro s h
  obtain ⟨hf, -, -⟩ := parked_iff.mp h
  refine ⟨step_of_parked h, fun hstage => ?started, h, ?ticks⟩
  case started => rw [step_of_parked h, ← hstage]
  case ticks =>
    rw [tick_of_no_fault hf]
    exact h

end Sys2Proof.Machine
end

section
/-! PROOFS. The statement of 70_reset_and_hazards.md about the construction (R320, R321): it writes the font as one block, and
takes every other piece of state from its arguments or from R43. -/

namespace Sys2Proof.Machine

open Sys2Proof

/-! ## Loading the font (R64) -/

/-- The k-th address of the font block, as R64 writes it. -/
theorem addrPlus_fontBase (k : Nat) : addrPlus (mask12 fontBase) k = mask12 (0x050 + k) := rfl

/-- After the font is loaded, byte k of it stands at 0x050 + k. -/
theorem memRead_loadFont_inside (m : Memory) (font : Vector Byte 80) (k : Fin 80) :
    memRead (loadFont m font) (mask12 (0x050 + k.val)) = font[k] := by
  have hlen : font.toList.length = 80 := Vector.length_toList
  rw [loadFont, ← addrPlus_fontBase,
    memRead_memWriteBytes_inside m (mask12 fontBase) font.toList (by omega) k.val (by omega)]
  exact Vector.getElem_toList _

/-- The font block does not wrap, so loading it leaves every byte below 0x050 and above 0x09F alone. -/
theorem memRead_loadFont_outside (m : Memory) (font : Vector Byte 80) {a : Addr}
    (ha : ¬ (0x050 ≤ a.toNat ∧ a.toNat ≤ 0x09F)) : memRead (loadFont m font) a = memRead m a := by
  refine memRead_memWriteBytes_outside m (mask12 fontBase) a font.toList fun k hk hak => ha ?_
  rw [Vector.length_toList] at hk
  rw [hak, addrPlus_fontBase, mask12_toNat]
  omega

/-- Settles O42: every field but the memory is set by the construction itself, and its memory is the launch's with the font
loaded. -/
theorem constructionState : Obligations.ConstructionState := fun cfg init =>
  ⟨rfl, rfl, rfl, rfl, rfl, rfl, rfl, rfl, rfl, rfl, rfl, rfl,
    fun k => memRead_loadFont_inside init.mem cfg.font k,
    fun _ ha => memRead_loadFont_outside init.mem cfg.font ha⟩

end Sys2Proof.Machine
end
